-- ==== Sys2Proof/Word.lean ====
section
/-! DEFINITION. The word types of the block (R5, R6): every value is an unsigned integer of a stated width, a byte is 8 bits. -/

namespace Sys2Proof

/-- A byte (R6). -/
abbrev Byte := BitVec 8
/-- A 16-bit value: ICMP identifier, sequence number, checksum, the counters and sizes (R5, D1). -/
abbrev Half := BitVec 16
/-- A 32-bit value: an IPv4 address, the checksum accumulator (R5). -/
abbrev Word := BitVec 32
/-- A 64-bit time in ticks of 1 µs (R5 TIME_W, R33). -/
abbrev Time := BitVec 64

end Sys2Proof
end

