-- ==== Sys2Proof/Config.lean ====
section
/-! DEFINITION. The parameters of the block (R5), the implementation's open constant, and the free values the spec leaves unspecified. -/

namespace Sys2Proof.Config

/-- ICMP echo-request type (R5, R81). -/
def icmpEchoRequest : Byte := 8#8
/-- ICMP echo-reply type (R5, R81). -/
def icmpEchoReply : Byte := 0#8
/-- The IPv4 version field value (R5). -/
def ipVersion : BitVec 4 := 4#4
/-- Ticks of `now` per second (R5, D2). -/
def tickHz : Nat := 1000000
/-- `T_TIMEOUT`, two seconds in ticks (R5). -/
def tTimeout : Time := 2000000#64
/-- `T_RESEND`, one second in ticks (R5). -/
def tResend : Time := 1000000#64
/-- `RX_MAX`, the longest datagram, and the longest payload operand (R5, R60, R190). -/
def rxMax : Nat := 65535
/-- The longest message operand of CSUMCHK (R115, R190). -/
def messageMax : Nat := 65543
/-- `max_count` supplied by the excluded configuration layer when nothing else is said (R5, R22). -/
def defaultMaxCount : Half := 256#16
/-- `payload_size` supplied by the excluded configuration layer when nothing else is said (R5, R23). -/
def defaultPayloadSize : Half := 32#16

/-- `FILL_BYTE`, the value of every filler byte of a request payload: OPEN (R5, R68, D3).
DESIGN CHOICE, log 2: no body, so that no proof can lean on a value of it. -/
opaque fillByte : Byte

/-- The value of a 16-bit register that RESET leaves holding no value (R43, R260), one per draw.  Log 3. -/
opaque unspecifiedHalf : Nat → Half
/-- The value of a 32-bit register that RESET leaves holding no value (R43, R260), one per draw.  Log 3. -/
opaque unspecifiedWord : Nat → Word
/-- The value of a 64-bit register that RESET leaves holding no value (R43, R260), one per draw.  Log 3. -/
opaque unspecifiedTime : Nat → Time
/-- The value of a 1-bit register that RESET leaves holding no value (R43, R260), one per draw.  Log 3. -/
opaque unspecifiedBit : Nat → Bool

end Sys2Proof.Config
end

