-- ==== Sys2Proof/Syntax.lean ====
section
/-! DEFINITION. The syntax: one constructor of `Instr` per row of spec/opcode_table.json, and the form in which the environment issues one (a selecting word and the named operand ports, R88 to R90). -/

namespace Sys2Proof

/-- The fields of the 160 fixed bits of an IPv4 header (R83), less the version, which the format fixes at 4. -/
structure Ip4Fields where
  ihl : BitVec 4
  tos : Byte
  totalLength : Half
  identification : Half
  /-- the reserved flag bit, byte 6 bit 7; never exposed by the decoder -/
  z : BitVec 1
  df : BitVec 1
  mf : BitVec 1
  fragmentOffset : BitVec 13
  ttl : Byte
  protocol : Byte
  headerChecksum : Half
  source : Word
  destination : Word
  deriving DecidableEq, Repr

/-- The twelve operations of R89 with their operands (R90), the four reserved event codes (R91), and the three wire formats (R82, R83). -/
inductive Instr where
  /-- 0x1, R171 -/
  | cfg (id max size : Half) (dst : Word)
  /-- 0x2, R172 -/
  | start
  /-- 0x3, R178; the operand is the datagram `D`, and `rx_len = |D|` -/
  | rx (datagram : List Byte)
  /-- 0x4, R175 -/
  | tmo
  /-- 0x5, R174 -/
  | rsnd
  /-- 0x6, R181 -/
  | adv (d : Time)
  /-- 0x8, R111 -/
  | csum (type code : Byte) (identifier sequenceNumber : Half) (payload : List Byte)
  /-- 0x9, R115 -/
  | csumchk (message : List Byte)
  /-- 0xA, R130 -/
  | icmpenc (type code : Byte) (identifier sequenceNumber : Half) (payload : List Byte)
  /-- 0xB, R131 -/
  | icmpdec (bytes : List Byte)
  /-- 0xC, R150 -/
  | ip4dec (bytes : List Byte)
  /-- 0xF, R260 -/
  | reset
  /-- 0x0, R91 -/
  | reserved0
  /-- 0x7, R91 -/
  | reserved7
  /-- 0xD, R91 -/
  | reservedD
  /-- 0xE, R91 -/
  | reservedE
  /-- the 8 header bytes of a transmitted message, R82 -/
  | echoRequest (checksum identifier sequenceNumber : Half)
  /-- the 8 header bytes of an acceptable reply, R82 -/
  | echoReply (code : Byte) (checksum identifier sequenceNumber : Half)
  /-- the fixed part of a received IPv4 header and the option bytes after it, R83 -/
  | ipv4Header (fields : Ip4Fields) (options : List Byte)
  deriving DecidableEq, Repr

/-- The named operand ports (R90).  `datagram` is the content of the receive port, whose length is `rx_len`. -/
structure Ports where
  id : Half
  max : Half
  size : Half
  dst : Word
  datagram : List Byte
  d : Time
  type : Byte
  code : Byte
  identifier : Half
  sequenceNumber : Half
  payload : List Byte
  message : List Byte
  bytes : List Byte
  deriving DecidableEq, Repr

/-- Ports that carry zeros: every scalar is 0, every byte sequence has its shortest legal length (R190: a message has at least 8 bytes). -/
def Ports.quiet : Ports where
  id := 0
  max := 0
  size := 0
  dst := 0
  datagram := []
  d := 0
  type := 0
  code := 0
  identifier := 0
  sequenceNumber := 0
  payload := []
  message := [0, 0, 0, 0, 0, 0, 0, 0]
  bytes := []

/-- One issue of the environment: the selecting word (one byte whose low nibble is the event code `ev[3:0]`, or the bytes of a wire header) and the operand ports.  The byte framing is the model's own (log 5). -/
structure Issue where
  word : List Byte
  ports : Ports
  deriving DecidableEq, Repr

/-- Why a selecting word is no instruction. -/
inductive DecodeError where
  /-- the word is neither 1 byte, nor 8 bytes, nor 20 or more -/
  | wordLength
  /-- an event word whose upper nibble is not 0: an event code has 4 bits (R88) -/
  | eventNibble
  /-- 8 bytes that are neither ECHO_REQUEST nor ECHO_REPLY (R82) -/
  | icmpFormat
  /-- 20 or more bytes whose first nibble is not 4 (R83) -/
  | ipFormat
  /-- an IPv4 header whose `ihl` is 0 to 4 (R83, R84) -/
  | ipLength
  /-- an IPv4 header with more or fewer option bytes than the `4*ihl - 20` its `ihl` declares (R83, R85) -/
  | ipOptions
  deriving DecidableEq, Repr

end Sys2Proof
end

