-- ==== Sys2Proof/Machine/Operands.lean ====
section
/-! DEFINITION. How operands are assembled: byte order, the bytes of the two wire headers, the 16-bit words of a byte sequence (R6, R61, R80, R83, R87, R110). -/

namespace Sys2Proof.Machine

/-- `be16(b0, b1)`: the first byte is the high 8 bits (R6, R61). -/
def be16 (b0 b1 : Byte) : Half := b0 ++ b1

/-- `be32(b0, b1, b2, b3)` (R6, R61). -/
def be32 (b0 b1 b2 b3 : Byte) : Word := be16 b0 b1 ++ be16 b2 b3

/-- `hi8(v) = v[15:8]` (R6). -/
def hi8 (v : Half) : Byte := v.extractLsb' 8 8

/-- `lo8(v) = v[7:0]` (R6). -/
def lo8 (v : Half) : Byte := v.extractLsb' 0 8

/-- The high half of a 32-bit value. -/
def hi16 (v : Word) : Half := v.extractLsb' 16 16

/-- The low half of a 32-bit value. -/
def lo16 (v : Word) : Half := v.extractLsb' 0 16

/-- The version, byte 0 bits 7:4 (R83). -/
def versionOf (b0 : Byte) : BitVec 4 := b0.extractLsb' 4 4

/-- The header length in 4-byte units, byte 0 bits 3:0 (R83). -/
def ihlOf (b0 : Byte) : BitVec 4 := b0.extractLsb' 0 4

/-- `header_length_bytes = 4 * ihl` (R84). -/
def headerLength (ihl : BitVec 4) : Nat := 4 * ihl.toNat

/-- The reserved flag bit, byte 6 bit 7 (R83). -/
def reservedFlagOf (b6 : Byte) : BitVec 1 := b6.extractLsb' 7 1

/-- Don't fragment, byte 6 bit 6 (R83). -/
def dfOf (b6 : Byte) : BitVec 1 := b6.extractLsb' 6 1

/-- More fragments, byte 6 bit 5 (R83). -/
def mfOf (b6 : Byte) : BitVec 1 := b6.extractLsb' 5 1

/-- The raw 13-bit fragment offset (R83, R87). -/
def fragmentOffsetOf (b6 b7 : Byte) : BitVec 13 := b6.extractLsb' 0 5 ++ b7

/-- Byte 6 of an IPv4 header: three flags, then the high 5 bits of the fragment offset (R83). -/
def flagsByte (z df mf : BitVec 1) (fragmentOffset : BitVec 13) : Byte :=
  z ++ df ++ mf ++ fragmentOffset.extractLsb' 8 5

/-- The 8 bytes of an ICMP header (R80). -/
def icmpHeaderBytes (type code : Byte) (checksum identifier sequenceNumber : Half) : List Byte :=
  [type, code, hi8 checksum, lo8 checksum, hi8 identifier, lo8 identifier,
    hi8 sequenceNumber, lo8 sequenceNumber]

/-- The 20 fixed bytes of an IPv4 header (R83). -/
def ip4HeaderBytes (h : Ip4Fields) : List Byte :=
  [Config.ipVersion ++ h.ihl, h.tos, hi8 h.totalLength, lo8 h.totalLength,
    hi8 h.identification, lo8 h.identification,
    flagsByte h.z h.df h.mf h.fragmentOffset, h.fragmentOffset.extractLsb' 0 8,
    h.ttl, h.protocol, hi8 h.headerChecksum, lo8 h.headerChecksum,
    hi8 (hi16 h.source), lo8 (hi16 h.source), hi8 (lo16 h.source), lo8 (lo16 h.source),
    hi8 (hi16 h.destination), lo8 (hi16 h.destination),
    hi8 (lo16 h.destination), lo8 (lo16 h.destination)]

/-- `word(P, j)` for j = 0, 1, ...: consecutive pairs, an odd last byte is a high byte (R65, R110). -/
def words : List Byte → List Half
  | [] => []
  | [b] => [be16 b 0#8]
  | b0 :: b1 :: rest => be16 b0 b1 :: words rest

/-- `n` bytes, the most significant first, of a number. -/
def bytesOfNat : Nat → Nat → List Byte
  | 0, _ => []
  | n + 1, w => BitVec.ofNat 8 (w >>> (8 * n)) :: bytesOfNat n w

end Sys2Proof.Machine
end

