-- ==== Sys2Proof/Decode.lean ====
section
/-! DEFINITION. The decoder, total on any selecting word (R88 to R91, R82, R83), the encoder written from the same tables, and the decoder seen through the opcode table's bit numbering. -/

namespace Sys2Proof

open Sys2Proof.Machine

/-- The event code map (R89) with the operand ports of each operation (R90). -/
def decodeEvent (b : Byte) (p : Ports) : Except DecodeError Instr :=
  match b.toNat with
  | 0x0 => .ok .reserved0
  | 0x1 => .ok (.cfg p.id p.max p.size p.dst)
  | 0x2 => .ok .start
  | 0x3 => .ok (.rx p.datagram)
  | 0x4 => .ok .tmo
  | 0x5 => .ok .rsnd
  | 0x6 => .ok (.adv p.d)
  | 0x7 => .ok .reserved7
  | 0x8 => .ok (.csum p.type p.code p.identifier p.sequenceNumber p.payload)
  | 0x9 => .ok (.csumchk p.message)
  | 0xA => .ok (.icmpenc p.type p.code p.identifier p.sequenceNumber p.payload)
  | 0xB => .ok (.icmpdec p.bytes)
  | 0xC => .ok (.ip4dec p.bytes)
  | 0xD => .ok .reservedD
  | 0xE => .ok .reservedE
  | 0xF => .ok .reset
  | _ => .error .eventNibble

/-- The two ICMP messages (R82): type 8 code 0 is a request, type 0 with any code a reply. -/
def decodeIcmpHeader (b0 b1 b2 b3 b4 b5 b6 b7 : Byte) : Except DecodeError Instr :=
  if b0 = Config.icmpEchoRequest ∧ b1 = 0#8 then
    .ok (.echoRequest (be16 b2 b3) (be16 b4 b5) (be16 b6 b7))
  else if b0 = Config.icmpEchoReply then
    .ok (.echoReply b1 (be16 b2 b3) (be16 b4 b5) (be16 b6 b7))
  else
    .error .icmpFormat

/-- The IPv4 header format (R83): the first nibble is 4, `ihl` is 5 or more, and the option bytes are the `4*ihl - 20` it declares (R84, R85); every other bit is a field. -/
def decodeIp4Header (b0 b1 b2 b3 b4 b5 b6 b7 b8 b9 b10 b11 b12 b13 b14 b15 b16 b17 b18 b19 : Byte)
    (options : List Byte) : Except DecodeError Instr :=
  if versionOf b0 ≠ Config.ipVersion then .error .ipFormat
  else if (ihlOf b0).toNat < 5 then .error .ipLength
  else if 20 + options.length ≠ headerLength (ihlOf b0) then .error .ipOptions
  else
    .ok (.ipv4Header
      { ihl := ihlOf b0
        tos := b1
        totalLength := be16 b2 b3
        identification := be16 b4 b5
        z := reservedFlagOf b6
        df := dfOf b6
        mf := mfOf b6
        fragmentOffset := fragmentOffsetOf b6 b7
        ttl := b8
        protocol := b9
        headerChecksum := be16 b10 b11
        source := be32 b12 b13 b14 b15
        destination := be32 b16 b17 b18 b19 } options)

/-- The decoder: the length of the selecting word says which of the three formats it is. -/
def decode (iss : Issue) : Except DecodeError Instr :=
  match iss.word with
  | [b] => decodeEvent b iss.ports
  | [b0, b1, b2, b3, b4, b5, b6, b7] => decodeIcmpHeader b0 b1 b2 b3 b4 b5 b6 b7
  | b0 :: b1 :: b2 :: b3 :: b4 :: b5 :: b6 :: b7 :: b8 :: b9 :: b10 :: b11 :: b12 :: b13 :: b14 ::
      b15 :: b16 :: b17 :: b18 :: b19 :: options =>
    decodeIp4Header b0 b1 b2 b3 b4 b5 b6 b7 b8 b9 b10 b11 b12 b13 b14 b15 b16 b17 b18 b19 options
  | _ => .error .wordLength

/-- The selecting word of an instruction (R82, R83, R89). -/
def encodeWord : Instr → List Byte
  | .cfg _ _ _ _ => [0x1#8]
  | .start => [0x2#8]
  | .rx _ => [0x3#8]
  | .tmo => [0x4#8]
  | .rsnd => [0x5#8]
  | .adv _ => [0x6#8]
  | .csum _ _ _ _ _ => [0x8#8]
  | .csumchk _ => [0x9#8]
  | .icmpenc _ _ _ _ _ => [0xA#8]
  | .icmpdec _ => [0xB#8]
  | .ip4dec _ => [0xC#8]
  | .reset => [0xF#8]
  | .reserved0 => [0x0#8]
  | .reserved7 => [0x7#8]
  | .reservedD => [0xD#8]
  | .reservedE => [0xE#8]
  | .echoRequest checksum identifier sequenceNumber =>
    icmpHeaderBytes Config.icmpEchoRequest 0#8 checksum identifier sequenceNumber
  | .echoReply code checksum identifier sequenceNumber =>
    icmpHeaderBytes Config.icmpEchoReply code checksum identifier sequenceNumber
  | .ipv4Header fields options => ip4HeaderBytes fields ++ options

/-- The operand ports of an instruction (R90); a port the operation does not read is quiet. -/
def encodePorts : Instr → Ports
  | .cfg id max size dst => { Ports.quiet with id := id, max := max, size := size, dst := dst }
  | .start => Ports.quiet
  | .rx datagram => { Ports.quiet with datagram := datagram }
  | .tmo => Ports.quiet
  | .rsnd => Ports.quiet
  | .adv d => { Ports.quiet with d := d }
  | .csum type code identifier sequenceNumber payload =>
    { Ports.quiet with
      type := type, code := code, identifier := identifier, sequenceNumber := sequenceNumber,
      payload := payload }
  | .csumchk message => { Ports.quiet with message := message }
  | .icmpenc type code identifier sequenceNumber payload =>
    { Ports.quiet with
      type := type, code := code, identifier := identifier, sequenceNumber := sequenceNumber,
      payload := payload }
  | .icmpdec bytes => { Ports.quiet with bytes := bytes }
  | .ip4dec bytes => { Ports.quiet with bytes := bytes }
  | .reset => Ports.quiet
  | .reserved0 => Ports.quiet
  | .reserved7 => Ports.quiet
  | .reservedD => Ports.quiet
  | .reservedE => Ports.quiet
  | .echoRequest _ _ _ => Ports.quiet
  | .echoReply _ _ _ _ => Ports.quiet
  | .ipv4Header _ _ => Ports.quiet

/-- The encoder: the issue by which the environment asks for an instruction. -/
def encode (i : Instr) : Issue := { word := encodeWord i, ports := encodePorts i }

/-- The selecting word of a table row's bits `w`: bit 0 is the least significant bit of the table's number, whose most
significant byte is first on the wire (R80, R83); an IPv4 header is followed by the option bytes its `ihl` declares, zeros. -/
def tableWordBytes (nbits w : Nat) : List Byte :=
  let header := bytesOfNat ((nbits + 7) / 8) w
  match header with
  | [] => []
  | b0 :: _ =>
    if nbits = 160 then header ++ List.replicate (headerLength (ihlOf b0) - 20) 0#8 else header

/-- The issue of a table row's bits, with quiet operand ports. -/
def issueOfTableWord (nbits w : Nat) : Issue :=
  { word := tableWordBytes nbits w, ports := Ports.quiet }

/-- What the decoder reads from a table row's bits. -/
def decodeTableWord (nbits w : Nat) : Option Instr :=
  match decode (issueOfTableWord nbits w) with
  | .ok i => some i
  | .error _ => none

end Sys2Proof
end

