-- ==== Sys2Proof/Machine/State.lean ====
section
/-! DEFINITION. The state of the block as plain data (R20 to R37), the reasons a step can stop, and the state after reset (R43). -/

namespace Sys2Proof.Machine

/-- The session state (R30). -/
inductive Fsm where
  /-- before START; code 0 -/
  | idle
  /-- inside `send_request` only; code 1 -/
  | sending
  /-- a request is outstanding or the chain after it runs; code 2 -/
  | awaitingReply
  /-- the session is over; code 3 -/
  | done
  deriving DecidableEq, Repr

/-- Which handler the wait's completion runs (R32). -/
inductive TmrKind where
  /-- code 0: TMO -/
  | timeout
  /-- code 1: RSND -/
  | resend
  deriving DecidableEq, Repr

/-- The closed list of failure and drop reasons (R220). -/
inductive Failure where
  | ip4Short
  | ip4Version
  | ip4Ihl
  | ip4Trunc
  | icmpShort
  | notEchoReply
  | idMismatch
  | seqMismatch
  deriving DecidableEq, Repr

/-- The IPv4 header view (R36). -/
structure Ip4View where
  version : BitVec 4
  ihl : BitVec 4
  tos : Byte
  totalLength : Half
  identification : Half
  df : BitVec 1
  mf : BitVec 1
  fragmentOffset : BitVec 13
  ttl : Byte
  protocol : Byte
  headerChecksum : Half
  source : Word
  destination : Word
  options : List Byte
  headerLengthBytes : BitVec 6
  deriving DecidableEq, Repr

/-- The ICMP header view (R37). -/
structure IcmpView where
  type : Byte
  code : Byte
  checksum : Half
  identifier : Half
  sequenceNumber : Half
  deriving DecidableEq, Repr

/-- The result of a decode function: `OK(view)` or `FAIL(code)` (R40, R90). -/
inductive Decoded (α : Type) where
  | ok (view : α)
  | fail (failure : Failure)
  deriving DecidableEq, Repr

/-- What the acceptance predicate says of a datagram (R179). -/
inductive Screened where
  | accepted (v4 : Ip4View) (vi : IcmpView)
  | dropped (failure : Failure)
  deriving DecidableEq, Repr

/-- The result port of a pure function (R90). -/
inductive Result where
  | checksum (c : Half)
  | ok (b : Bool)
  | header (bytes : List Byte)
  | icmp (r : Decoded IcmpView)
  | ip4 (r : Decoded Ip4View)
  deriving DecidableEq, Repr

/-- The records of the output stream (R35, R97). -/
inductive Record where
  | tx (dst : Word) (bytes : List Byte)
  | reply (byteCount : Half) (src : Word) (seq : Half) (ttl : Byte) (rtt : Time)
  | timeoutNote
  deriving DecidableEq, Repr

/-- A byte-addressed space (R60): the cells that hold a value, by strictly rising offset. A cell that is not listed holds no value (DEDUCED, log 9). -/
abbrev Memory := List Host.Cell

/-- The canonical form of a memory: offsets strictly rise.  No listed cell can equal an unlisted one, which holds no value. -/
def Memory.wf : Memory → Bool
  | [] => true
  | [_] => true
  | (a, _) :: (b, y) :: rest => decide (a < b) && Memory.wf ((b, y) :: rest)

/-- The whole state of the block (R20), with its input and output ports. -/
structure State where
  /-- R21 -/
  identifier : Half
  /-- R22 -/
  maxCount : Half
  /-- R23 -/
  payloadSize : Half
  /-- R24 -/
  targetEndpoint : Word
  /-- R25 -/
  cfgValid : Bool
  /-- R30 -/
  fsm : Fsm
  /-- R27 -/
  sentCount : Half
  /-- R28 -/
  replyCount : Half
  /-- R29 -/
  lastSendTimestamp : Time
  /-- R31 -/
  rxArmed : Bool
  /-- R32 -/
  tmrArmed : Bool
  /-- R32 -/
  tmrKind : TmrKind
  /-- R32 -/
  tmrDeadline : Time
  /-- R32 -/
  tmrForced : Bool
  /-- R33 -/
  now : Time
  /-- R34, R60: the receive datagram buffer -/
  rxbuf : Memory
  /-- R34, R60 -/
  rxLen : Half
  /-- R34, R60: the transmit buffer -/
  txbuf : Memory
  /-- R35: the output stream, oldest first -/
  out : List Record
  /-- R90: the result port: the answer of the operation just run, `none` unless that was a pure function or a wire format.  The next operation ends it (R36, R37, R135, R158; the field is the model's own, log 7). -/
  result : Option Result
  /-- R8, R235: what the environment has issued and the block has not handled yet, oldest first (the model's own field, log 4) -/
  issues : List Issue
  /-- the next draw of the free values of `Config` (the model's own field, log 3) -/
  freeIndex : Nat
  deriving DecidableEq, Repr

/-- Why the machine stops with a fault.  The block itself has no fault state (R9). -/
inductive Fault where
  /-- A buffer byte that holds no value was read (R43, U9).  Raised by RX and by the transmit port if the bytes they read were not written first, which no run of the model does.  Safe: the spec has no such read (R73). -/
  | unwrittenRead
  deriving DecidableEq, Repr

/-- Why an issue is refused: the block takes no step (R9; DEDUCED, log 10). -/
inductive Refusal where
  /-- Raised by exec's arms only: the instruction has no meaning yet.  Safe. -/
  | notModelled (mnemonic : String)
  /-- Raised by every session operation whose enabling condition does not hold (R9, R190, U8).  Safe: the spec's own refusal. -/
  | notEnabled
  /-- Raised by RX and the pure functions on a byte sequence outside the operand domain (R112, R115, R190, U10).  Safe: the spec's own refusal. -/
  | operandDomain
  /-- Raised by ADV when time would pass the no-wrap premise (R33, R181, U11).  Safe: the spec's own refusal. -/
  | timePremise
  /-- Raised by the four reserved event codes (R91, U7).  Safe: the spec's own refusal. -/
  | reservedCode (ev : BitVec 4)
  /-- Raised by step on a selecting word that is no instruction.  Safe. -/
  | undecodable (e : DecodeError)
  deriving DecidableEq, Repr

/-- The machine right after reset (R43).  The spec gives `cfg_valid`, `fsm`, `sent_count`, `reply_count`, `rx_armed`,
`tmr_armed`, `tmr_forced` and `out`; every other value is DESIGN CHOICE, log 1. -/
def State.reset : State where
  identifier := 0#16
  maxCount := 0#16
  payloadSize := 0#16
  targetEndpoint := 0#32
  cfgValid := false
  fsm := .idle
  sentCount := 0#16
  replyCount := 0#16
  lastSendTimestamp := 0#64
  rxArmed := false
  tmrArmed := false
  tmrKind := .timeout
  tmrDeadline := 0#64
  tmrForced := false
  now := 0#64
  rxbuf := []
  rxLen := 0#16
  txbuf := []
  out := []
  result := none
  issues := []
  freeIndex := 0

end Sys2Proof.Machine
end

