-- ==== Sys2Proof/Machine/Ops.lean ====
section
/-! DEFINITION. The named operations over buffers and registers that the meanings share: buffer access (R60 to R63), the timer primitives (R176, R177), the output stream (R35), the listener (R31), and what a failure does (R221, R222). -/

namespace Sys2Proof.Machine

/-- One byte of a buffer; `none` where the offset holds no value. -/
def readByte : Memory → Nat → Option Byte
  | [], _ => none
  | (k, b) :: m, a => if k = a then some b else readByte m a

/-- The bytes at offsets `a` to `a + n - 1`, if every one of them holds a value. -/
def readRange : Memory → Nat → Nat → Option (List Byte)
  | _, _, 0 => some []
  | [], _, _ + 1 => none
  | (k, b) :: m, a, n + 1 =>
    if k < a then readRange m a (n + 1)
    else if k = a then (readRange m (a + 1) n).map (b :: ·)
    else none

/-- `MemRead(addr, 1)` (R62). -/
def memRead1 (m : Memory) (addr : Nat) : Option Byte := readByte m addr

/-- `MemRead(addr, 2)`, big-endian (R62). -/
def memRead2 (m : Memory) (addr : Nat) : Option Half :=
  match readByte m addr, readByte m (addr + 1) with
  | some b0, some b1 => some (be16 b0 b1)
  | _, _ => none

/-- `MemRead(addr, 4)`, big-endian (R62). -/
def memRead4 (m : Memory) (addr : Nat) : Option Word :=
  match memRead2 m addr, memRead2 m (addr + 2) with
  | some h, some l => some (h ++ l)
  | _, _ => none

/-- `MemWrite(addr, 1, v)` (R63); the list stays sorted. -/
def memWrite1 (addr : Nat) (v : Byte) : Memory → Memory
  | [] => [(addr, v)]
  | (k, b) :: m =>
    if addr < k then (addr, v) :: (k, b) :: m
    else if addr = k then (addr, v) :: m
    else (k, b) :: memWrite1 addr v m

/-- `MemWrite(addr, 2, v)`, big-endian (R63). -/
def memWrite2 (addr : Nat) (v : Half) (m : Memory) : Memory :=
  memWrite1 (addr + 1) (lo8 v) (memWrite1 addr (hi8 v) m)

/-- A byte sequence written from offset `addr` on, one byte at a time. -/
def writeBytes (addr : Nat) : List Byte → Memory → Memory
  | [], m => m
  | b :: bytes, m => writeBytes (addr + 1) bytes (memWrite1 addr b m)

/-- A buffer that holds exactly a byte sequence, from offset `addr` on. -/
def loadBytes (addr : Nat) : List Byte → Memory
  | [] => []
  | b :: bytes => (addr, b) :: loadBytes (addr + 1) bytes

/-- `sat_inc` (R7, R28). -/
def satInc (v : Half) : Half := if v = 0xFFFF#16 then 0xFFFF#16 else v + 1#16

/-- `emit`: append one record to `out` (R7, R35). -/
def emit (r : Record) (s : State) : State := { s with out := s.out ++ [r] }

/-- The answer of a pure function on the result port (R90), in place of any earlier one. -/
def setResult (r : Result) (s : State) : State := { s with result := some r }

/-- An operation without an answer begins: a header built or a view decoded by an earlier operation does not survive (R36, R37, R135, R158). -/
def clearResult (s : State) : State := { s with result := none }

/-- `arm(kind, deadline)` (R176). -/
def arm (kind : TmrKind) (deadline : Time) (s : State) : State :=
  { s with tmrArmed := true, tmrKind := kind, tmrDeadline := deadline, tmrForced := false }

/-- `cancel_timeout()` (R177): the TIMEOUT wait completes early; a RESEND wait is left alone. -/
def cancelTimeout (s : State) : State :=
  if s.tmrArmed ∧ s.tmrKind = .timeout then { s with tmrForced := true } else s

/-- The timer event's handler has begun: the wait is consumed (R174, R175). -/
def consumeWait (s : State) : State := { s with tmrArmed := false, tmrForced := false }

/-- The environment delivers a datagram whole to `RXBUF` (R34, R60, R72). -/
def deliver (datagram : List Byte) (s : State) : State :=
  { s with rxbuf := loadBytes 0 datagram, rxLen := BitVec.ofNat 16 datagram.length }

/-- The receive is over: the content of `RXBUF` is unspecified from here on (R34), so it holds no value. -/
def releaseRx (s : State) : State := { s with rxbuf := [] }

/-- The end of an RX: the listener is armed again or not (R31, R178). -/
def finishRx (armed : Bool) (s : State) : State := releaseRx { s with rxArmed := armed }

/-- What every failure and every mismatch does: drop the datagram and re-arm the listener (R221, R222). -/
def discard (s : State) : State := finishRx true s

/-- `payload_size` bytes, each `FILL_BYTE` (R68, R173). -/
def fillerPayload (size : Half) : List Byte := List.replicate size.toNat Config.fillByte

/-- `TXBUF <- H ++ P` (R63, R68): the header by MemWrite in front of the payload. -/
def storeRequest (header payload : List Byte) (s : State) : State :=
  { s with txbuf := writeBytes 0 header (loadBytes header.length payload) }

/-- The transmit port reads the whole request once, as the bytes of a TX record (R60, R74); what TXBUF holds afterwards is unspecified (R34), so it holds no value. -/
def transmit (length : Nat) (s : State) : Option State :=
  (readRange s.txbuf 0 length).map fun bytes =>
    { emit (.tx s.targetEndpoint bytes) s with txbuf := [] }

end Sys2Proof.Machine
end

