-- ==== Sys2Proof/Machine/Reset.lean ====
section
/-! DEFINITION. RESET (R260) and the four reserved event codes (R91). -/

namespace Sys2Proof.Machine

/-- RESET (R260): the registers that hold no value from here on take free values (log 3), the buffers hold no byte and the result port no answer (R135); `out`, `now` and what the environment has issued are unchanged. -/
def execReset (s : State) : Host.Outcome State Fault Refusal :=
  .next { clearResult s with
    fsm := .idle
    cfgValid := false
    sentCount := 0#16
    replyCount := 0#16
    rxArmed := false
    tmrArmed := false
    tmrForced := false
    identifier := Config.unspecifiedHalf s.freeIndex
    maxCount := Config.unspecifiedHalf (s.freeIndex + 1)
    payloadSize := Config.unspecifiedHalf (s.freeIndex + 2)
    rxLen := Config.unspecifiedHalf (s.freeIndex + 3)
    targetEndpoint := Config.unspecifiedWord s.freeIndex
    lastSendTimestamp := Config.unspecifiedTime s.freeIndex
    tmrDeadline := Config.unspecifiedTime (s.freeIndex + 1)
    tmrKind := if Config.unspecifiedBit s.freeIndex then .resend else .timeout
    rxbuf := []
    txbuf := []
    freeIndex := s.freeIndex + 4 }

/-- Reserved event code 0x0 (R91): no step, no state change. -/
def execReserved0 (_s : State) : Host.Outcome State Fault Refusal := .refused (.reservedCode 0x0#4)

/-- Reserved event code 0x7 (R91): no step, no state change. -/
def execReserved7 (_s : State) : Host.Outcome State Fault Refusal := .refused (.reservedCode 0x7#4)

/-- Reserved event code 0xD (R91): no step, no state change. -/
def execReservedD (_s : State) : Host.Outcome State Fault Refusal := .refused (.reservedCode 0xD#4)

/-- Reserved event code 0xE (R91): no step, no state change. -/
def execReservedE (_s : State) : Host.Outcome State Fault Refusal := .refused (.reservedCode 0xE#4)

end Sys2Proof.Machine
end

