-- ==== Sys2Proof/Machine/Flags.lean ====
section
/-! DEFINITION. The block has no flag register (R40).  This file holds what takes its place: the failure codes (R220), the timer's completion predicate (R32, R41) and the enabling conditions of the operations (R190). -/

namespace Sys2Proof.Machine

/-- The numeric failure codes (R220). -/
def Failure.code : Failure → Nat
  | .ip4Short => 1
  | .ip4Version => 2
  | .ip4Ihl => 3
  | .ip4Trunc => 4
  | .icmpShort => 5
  | .notEchoReply => 6
  | .idMismatch => 7
  | .seqMismatch => 8

/-- The code of `fsm` (R30). -/
def Fsm.code : Fsm → BitVec 2
  | .idle => 0
  | .sending => 1
  | .awaitingReply => 2
  | .done => 3

/-- The code of `tmr_kind` (R32). -/
def TmrKind.code : TmrKind → BitVec 1
  | .timeout => 0
  | .resend => 1

/-- The no-wrap premise `t + 3 * TICK_HZ < 2^64`, for a time that may exceed 64 bits, with the constant on one side (R33; DESIGN CHOICE, log 11). -/
def timePremise (t : Nat) : Bool := decide (t < 2 ^ 64 - 3 * Config.tickHz)

/-- The wait completes: the pending condition of the timer event (R32, R41). -/
def waitCompleted (s : State) : Bool :=
  s.tmrArmed && (s.tmrForced || decide (s.tmrDeadline ≤ s.now))

/-- CFG is enabled (R190). -/
def cfgEnabled (s : State) : Bool := decide (s.fsm = .idle)

/-- START is enabled (R190). -/
def startEnabled (s : State) : Bool := decide (s.fsm = .idle) && s.cfgValid

/-- TMO is enabled (R190). -/
def tmoEnabled (s : State) : Bool := decide (s.tmrKind = .timeout) && waitCompleted s

/-- RSND is enabled (R190). -/
def rsndEnabled (s : State) : Bool :=
  s.tmrArmed && decide (s.tmrKind = .resend) && decide (s.tmrDeadline ≤ s.now)

/-- ADV is enabled (R181, R190). -/
def advEnabled (d : Time) (s : State) : Bool := timePremise (s.now.toNat + d.toNat)

/-- The length of an operand is in its domain (R190). -/
def lengthAtMost (n : Nat) (bytes : List Byte) : Bool := decide (bytes.length ≤ n)

/-- The length of a CSUMCHK message is in its domain (R115, R190). -/
def messageLength (message : List Byte) : Bool :=
  decide (8 ≤ message.length) && lengthAtMost Config.messageMax message

end Sys2Proof.Machine
end

