-- ==== Sys2Proof/Machine/Checksum.lean ====
section
/-! DEFINITION. The checksum unit: CSUM and CSUMCHK (R110 to R115). -/

namespace Sys2Proof.Machine

/-- Add 16-bit words to the 32-bit accumulator, in order (R111). -/
def accumulate (acc : Word) : List Half → Word
  | [] => acc
  | w :: ws => accumulate (acc + w.setWidth 32) ws

/-- `fold(S) = (S >> 16) + (S & 0xFFFF)` (R110). -/
def fold (acc : Word) : Word := (acc >>> 16) + (acc &&& 0xFFFF#32)

/-- The sum of the header words: `(type * 256 + code) + identifier + sequence_number` (R111, C5). -/
def headerSum (type code : Byte) (identifier sequenceNumber : Half) : Word :=
  type.setWidth 32 * 256#32 + code.setWidth 32 + identifier.setWidth 32
    + sequenceNumber.setWidth 32

/-- The ICMP checksum of a header and a payload (R111). -/
def csum (type code : Byte) (identifier sequenceNumber : Half) (payload : List Byte) : Half :=
  let acc := accumulate (headerSum type code identifier sequenceNumber) (words payload)
  (~~~fold (fold acc)).extractLsb' 0 16

/-- Recompute and compare (R115); a message shorter than a header is outside the domain. -/
def csumchk : List Byte → Bool
  | b0 :: b1 :: b2 :: b3 :: b4 :: b5 :: b6 :: b7 :: payload =>
    decide (be16 b2 b3 = csum b0 b1 (be16 b4 b5) (be16 b6 b7) payload)
  | _ => false

/-- CSUM (R111, R112, R190). -/
def execCsum (type code : Byte) (identifier sequenceNumber : Half) (payload : List Byte)
    (s : State) : Host.Outcome State Fault Refusal :=
  if lengthAtMost Config.rxMax payload then
    .next (setResult (.checksum (csum type code identifier sequenceNumber payload)) s)
  else .refused .operandDomain

/-- CSUMCHK (R115, R190). -/
def execCsumchk (message : List Byte) (s : State) : Host.Outcome State Fault Refusal :=
  if messageLength message then .next (setResult (.ok (csumchk message)) s)
  else .refused .operandDomain

end Sys2Proof.Machine
end

