-- ==== Sys2Proof/Machine/Icmp.lean ====
section
/-! DEFINITION. The ICMP header codec: ICMPENC and ICMPDEC (R130, R131), the reply matcher's header tests (R179), and the two ICMP wire formats (R82). -/

namespace Sys2Proof.Machine

/-- The 8 header bytes of an ICMP message (R130). -/
def icmpenc (type code : Byte) (identifier sequenceNumber : Half) (payload : List Byte) :
    List Byte :=
  icmpHeaderBytes type code (csum type code identifier sequenceNumber payload) identifier
    sequenceNumber

/-- Decode an ICMP header from exactly 8 bytes (R131); nothing but the length is validated (R132). -/
def icmpdec : List Byte → Decoded IcmpView
  | [b0, b1, b2, b3, b4, b5, b6, b7] =>
    .ok
      { type := b0
        code := b1
        checksum := be16 b2 b3
        identifier := be16 b4 b5
        sequenceNumber := be16 b6 b7 }
  | _ => .fail .icmpShort

/-- Tests 3 to 5 of the acceptance predicate (R179): the first that fails, or `none`. -/
def matchHeader (s : State) (vi : IcmpView) : Option Failure :=
  if vi.type ≠ Config.icmpEchoReply then some .notEchoReply
  else if vi.identifier ≠ s.identifier then some .idMismatch
  else if vi.sequenceNumber ≠ s.sentCount then some .seqMismatch
  else none

/-- The 8 bytes of an ICMP wire header presented to the block: ICMPDEC's answer (R131) on the result port.
No session register is read, so nothing of the session shows there (R26, R35); DESIGN CHOICE, log 6. -/
def presentIcmpHeader (bytes : List Byte) (s : State) : State :=
  setResult (.icmp (icmpdec bytes)) s

/-- ICMPENC (R130, R190). -/
def execIcmpenc (type code : Byte) (identifier sequenceNumber : Half) (payload : List Byte)
    (s : State) : Host.Outcome State Fault Refusal :=
  if lengthAtMost Config.rxMax payload then
    .next (setResult (.header (icmpenc type code identifier sequenceNumber payload)) s)
  else .refused .operandDomain

/-- ICMPDEC (R131, R190). -/
def execIcmpdec (bytes : List Byte) (s : State) : Host.Outcome State Fault Refusal :=
  if lengthAtMost Config.rxMax bytes then .next (setResult (.icmp (icmpdec bytes)) s)
  else .refused .operandDomain

/-- ECHO_REQUEST, the wire format of a transmitted header (R82): what ICMPDEC makes of it (R131, log 6). -/
def execEchoRequest (checksum identifier sequenceNumber : Half) (s : State) :
    Host.Outcome State Fault Refusal :=
  .next (presentIcmpHeader
    (icmpHeaderBytes Config.icmpEchoRequest 0#8 checksum identifier sequenceNumber) s)

/-- ECHO_REPLY, the wire format of an acceptable reply header (R82): what ICMPDEC makes of it (R131, log 6); the session matches it inside an RX only (R179). -/
def execEchoReply (code : Byte) (checksum identifier sequenceNumber : Half) (s : State) :
    Host.Outcome State Fault Refusal :=
  .next (presentIcmpHeader
    (icmpHeaderBytes Config.icmpEchoReply code checksum identifier sequenceNumber) s)

end Sys2Proof.Machine
end

