-- ==== Sys2Proof/Machine/Ipv4.lean ====
section
/-! DEFINITION. The IPv4 header decoder IP4DEC (R150) and the IPv4 wire format (R83). -/

namespace Sys2Proof.Machine

/-- Validate and parse the leading IPv4 header of a buffer (R150).  The tests stand in the order of R229; the second half of the options test cannot hold (R157).  The layout is PRESUMED in the spec itself, log 13. -/
def ip4dec (b : List Byte) : Decoded Ip4View :=
  match b with
  | b0 :: b1 :: b2 :: b3 :: b4 :: b5 :: b6 :: b7 :: b8 :: b9 :: b10 :: b11 :: b12 :: b13 :: b14 ::
      b15 :: b16 :: b17 :: b18 :: b19 :: rest =>
    let hlen := headerLength (ihlOf b0)
    let optlen : Int := (hlen : Int) - 20
    if versionOf b0 ≠ Config.ipVersion then .fail .ip4Version
    else if optlen < 0 ∨ 40 < optlen then .fail .ip4Ihl
    else if b.length < hlen then .fail .ip4Trunc
    else .ok
      { version := versionOf b0
        ihl := ihlOf b0
        tos := b1
        totalLength := be16 b2 b3
        identification := be16 b4 b5
        df := dfOf b6
        mf := mfOf b6
        fragmentOffset := fragmentOffsetOf b6 b7
        ttl := b8
        protocol := b9
        headerChecksum := be16 b10 b11
        source := be32 b12 b13 b14 b15
        destination := be32 b16 b17 b18 b19
        options := rest.take optlen.toNat
        headerLengthBytes := BitVec.ofNat 6 hlen }
  | _ => .fail .ip4Short

/-- IP4DEC (R150, R190). -/
def execIp4dec (bytes : List Byte) (s : State) : Host.Outcome State Fault Refusal :=
  if lengthAtMost Config.rxMax bytes then .next (setResult (.ip4 (ip4dec bytes)) s)
  else .refused .operandDomain

/-- IPV4_HEADER, the wire format of a received header and its options (R83): what IP4DEC makes of it (R150, log 6). -/
def execIpv4Header (fields : Ip4Fields) (options : List Byte) (s : State) :
    Host.Outcome State Fault Refusal :=
  execIp4dec (ip4HeaderBytes fields ++ options) s

end Sys2Proof.Machine
end

