-- ==== Sys2Proof/Machine/Session.lean ====
section
/-! DEFINITION. The ping session controller: CFG, START, RSND, TMO, RX and ADV (R171 to R181). -/

namespace Sys2Proof.Machine

/-- The no-op branch of `send_request` (R173, D7): tear the listener down, the session is over. -/
def endSession (s : State) : State := { s with rxArmed := false, fsm := .done }

/-- The transmitting branch of `send_request` up to TXBUF (R173): the counter is incremented before the header is encoded. -/
def buildRequest (s : State) : State :=
  let payload := fillerPayload s.payloadSize
  let sent := s.sentCount + 1#16
  let header := icmpenc Config.icmpEchoRequest 0#8 s.identifier sent payload
  storeRequest header payload
    { s with fsm := .sending, sentCount := sent, lastSendTimestamp := s.now }

/-- The transmitting branch of `send_request` after the request is handed over (R173). -/
def awaitReply (s : State) : State :=
  let s := arm .timeout (s.lastSendTimestamp + Config.tTimeout) { s with replyCount := 0#16 }
  { s with fsm := .awaitingReply }

/-- `send_request()` (R173). -/
def sendRequest (s : State) : Host.Outcome State Fault Refusal :=
  if s.sentCount = s.maxCount then .next (endSession s)
  else
    match transmit (8 + s.payloadSize.toNat) (buildRequest s) with
    | some s => .next (awaitReply s)
    | none => .fault .unwrittenRead

/-- The acceptance predicate with its drop codes, tested in order (R179, R229). -/
def screen (s : State) (datagram : List Byte) : Screened :=
  match ip4dec datagram with
  | .fail failure => .dropped failure
  | .ok v4 =>
    match icmpdec ((datagram.drop v4.headerLengthBytes.toNat).take 8) with
    | .fail failure => .dropped failure
    | .ok vi =>
      match matchHeader s vi with
      | some failure => .dropped failure
      | none => .accepted v4 vi

/-- The REPLY record of an accepted datagram (R97, R180). -/
def replyRecord (v4 : Ip4View) (vi : IcmpView) (s : State) : Record :=
  .reply (s.rxLen - v4.headerLengthBytes.setWidth 16) v4.source vi.sequenceNumber v4.ttl
    (s.now - s.lastSendTimestamp)

/-- The accepting branch of `handle_receive` (R178). -/
def acceptReply (v4 : Ip4View) (vi : IcmpView) (s : State) : State :=
  let s := if s.replyCount = 0#16 then cancelTimeout s else s
  let s := { s with replyCount := satInc s.replyCount }
  let s := emit (replyRecord v4 vi s) s
  finishRx (!decide (s.sentCount = s.maxCount)) s

/-- `handle_receive` on a datagram that lies in RXBUF (R178). -/
def handleReceive (s : State) : Host.Outcome State Fault Refusal :=
  let s := { s with rxArmed := false }
  match readRange s.rxbuf 0 s.rxLen.toNat with
  | none => .fault .unwrittenRead
  | some datagram =>
    match screen s datagram with
    | .dropped _ => .next (discard s)
    | .accepted v4 vi => .next (acceptReply v4 vi s)

/-- CFG (R171). -/
def execCfg (id max size : Half) (dst : Word) (s : State) : Host.Outcome State Fault Refusal :=
  if cfgEnabled s then
    .next { clearResult s with
      identifier := id, maxCount := max, payloadSize := size, targetEndpoint := dst,
      cfgValid := true }
  else .refused .notEnabled

/-- START (R172): arm the listener, then send request number 1. -/
def execStart (s : State) : Host.Outcome State Fault Refusal :=
  if startEnabled s then sendRequest { clearResult s with rxArmed := true }
  else .refused .notEnabled

/-- RX (R178). -/
def execRx (datagram : List Byte) (s : State) : Host.Outcome State Fault Refusal :=
  if s.rxArmed then
    if lengthAtMost Config.rxMax datagram then handleReceive (deliver datagram (clearResult s))
    else .refused .operandDomain
  else .refused .notEnabled

/-- TMO (R175): `handle_timeout()`. -/
def execTmo (s : State) : Host.Outcome State Fault Refusal :=
  if tmoEnabled s then
    let s := consumeWait (clearResult s)
    let s := if s.replyCount = 0#16 then emit .timeoutNote s else s
    .next (arm .resend (s.now + Config.tResend) s)
  else .refused .notEnabled

/-- RSND (R174). -/
def execRsnd (s : State) : Host.Outcome State Fault Refusal :=
  if rsndEnabled s then sendRequest (consumeWait (clearResult s)) else .refused .notEnabled

/-- ADV (R181): time passes. -/
def execAdv (d : Time) (s : State) : Host.Outcome State Fault Refusal :=
  if advEnabled d s then .next { clearResult s with now := s.now + d } else .refused .timePremise

end Sys2Proof.Machine
end

