-- ==== Sys2Proof/Machine/Dispatch.lean ====
section
/-! DEFINITION. The meaning of every instruction: one arm per constructor of `Instr`. -/

namespace Sys2Proof.Machine

def exec (i : Instr) (s : State) : Host.Outcome State Fault Refusal :=
  match i with
  | .cfg id max size dst => Sys2Proof.Machine.execCfg id max size dst s
  | .start => Sys2Proof.Machine.execStart s
  | .rx datagram => Sys2Proof.Machine.execRx datagram s
  | .tmo => Sys2Proof.Machine.execTmo s
  | .rsnd => Sys2Proof.Machine.execRsnd s
  | .adv d => Sys2Proof.Machine.execAdv d s
  | .csum type code identifier sequenceNumber payload => Sys2Proof.Machine.execCsum type code identifier sequenceNumber payload s
  | .csumchk message => Sys2Proof.Machine.execCsumchk message s
  | .icmpenc type code identifier sequenceNumber payload => Sys2Proof.Machine.execIcmpenc type code identifier sequenceNumber payload s
  | .icmpdec bytes => Sys2Proof.Machine.execIcmpdec bytes s
  | .ip4dec bytes => Sys2Proof.Machine.execIp4dec bytes s
  | .reset => Sys2Proof.Machine.execReset s
  | .reserved0 => Sys2Proof.Machine.execReserved0 s
  | .reserved7 => Sys2Proof.Machine.execReserved7 s
  | .reservedD => Sys2Proof.Machine.execReservedD s
  | .reservedE => Sys2Proof.Machine.execReservedE s
  | .echoRequest checksum identifier sequenceNumber => Sys2Proof.Machine.execEchoRequest checksum identifier sequenceNumber s
  | .echoReply code checksum identifier sequenceNumber => Sys2Proof.Machine.execEchoReply code checksum identifier sequenceNumber s
  | .ipv4Header fields options => Sys2Proof.Machine.execIpv4Header fields options s

end Sys2Proof.Machine
end

