-- ==== Sys2Proof/Machine/Step.lean ====
section
/-! DEFINITION. One step: the block takes the oldest issue of the environment, decodes it and runs it whole (R69, R170). -/

namespace Sys2Proof.Machine

/-- One step.  With nothing issued the block waits (R261, log 8); an earlier answer does not outlive that step either (R135). -/
def step (s : State) : Host.Outcome State Fault Refusal :=
  match s.issues with
  | [] => .next (clearResult s)
  | iss :: rest =>
    match decode iss with
    | .error e => .refused (.undecodable e)
    | .ok i => exec i { s with issues := rest }

/-- `s` with a table row's bits issued before everything else that is issued (DESIGN CHOICE, log 12). -/
def State.withFetchWord (s : State) (nbits w : Nat) : State :=
  { s with issues := issueOfTableWord nbits w :: s.issues }

end Sys2Proof.Machine
end

