-- ==== Sys2Proof/Machine/Script.lean ====
section
/-! DEFINITION. The script's pseudo-operations TMR, WAIT, AT and PING (R96), expanded in the state they are issued in, and how a script is put before the block. -/

namespace Sys2Proof.Machine

/-- A line of a script (R95): an operation or a pseudo-operation (R96). -/
inductive ScriptLine where
  | op (i : Instr)
  | tmr
  | wait
  | atTime (t : Time)
  | ping (id max size : Half) (dst : Word)
  deriving DecidableEq, Repr

/-- The event the timer raises (R94). -/
def timerEvent : TmrKind → Instr
  | .timeout => .tmo
  | .resend => .rsnd

/-- How far the ideal schedule advances time to the deadline: `max(0, tmr_deadline - now)` (R96). -/
def timeToDeadline (s : State) : Time :=
  if s.now ≤ s.tmrDeadline then s.tmrDeadline - s.now else 0

/-- The expansion of a line (R96); `none` where the line is refused.
WAIT with no wait outstanding: R96 writes an ADV to `tmr_deadline`, which has no meaning there (R32), and a TMR, which is
refused; the model refuses the whole line, with no ADV (DESIGN CHOICE, log 15). -/
def expandLine (line : ScriptLine) (s : State) : Option (List Instr) :=
  match line with
  | .op i => some [i]
  | .tmr => if waitCompleted s then some [timerEvent s.tmrKind] else none
  | .wait =>
    if s.tmrArmed then
      if s.tmrForced then some [timerEvent s.tmrKind]
      else some [.adv (timeToDeadline s), timerEvent s.tmrKind]
    else none
  | .atTime t => if s.now ≤ t then some [.adv (t - s.now)] else none
  | .ping id max size dst => some [.reset, .cfg id max size dst, .start]

/-- PING with the defaults of the excluded configuration layer (R5). -/
def pingDefault (id : Half) (dst : Word) : ScriptLine :=
  .ping id Config.defaultMaxCount Config.defaultPayloadSize dst

/-- Operations in order, stopping at the first that is refused. -/
def execAll : List Instr → State → Host.Outcome State Fault Refusal
  | [], s => .next s
  | i :: is, s =>
    match exec i s with
    | .next t => execAll is t
    | .fault r => .fault r
    | .refused r => .refused r

/-- One line of a script. -/
def execLine (line : ScriptLine) (s : State) : Host.Outcome State Fault Refusal :=
  match expandLine line s with
  | some is => execAll is s
  | none => .refused .notEnabled

/-- The environment issues operations, after whatever it has issued already. -/
def issue (is : List Instr) (s : State) : State := { s with issues := s.issues ++ is.map encode }

end Sys2Proof.Machine
end

