-- ==== Sys2Proof/WellFormed.lean ====
section
/-! DEFINITION. Which instructions are well formed: the operand domains of R190 (byte sequences are bounded, every scalar value is legal), and the length rules of the IPv4 format (R83 to R85). -/

namespace Sys2Proof

/-- The operand domain of an instruction (R112, R115, R190, U10); an IPv4 header has an `ihl` of 5 or more and the option bytes it declares (R83, R84, R85). -/
def Instr.wellFormed : Instr → Bool
  | .cfg _ _ _ _ => true
  | .start => true
  | .rx datagram => decide (datagram.length ≤ Config.rxMax)
  | .tmo => true
  | .rsnd => true
  | .adv _ => true
  | .csum _ _ _ _ payload => decide (payload.length ≤ Config.rxMax)
  | .csumchk message => decide (8 ≤ message.length) && decide (message.length ≤ Config.messageMax)
  | .icmpenc _ _ _ _ payload => decide (payload.length ≤ Config.rxMax)
  | .icmpdec bytes => decide (bytes.length ≤ Config.rxMax)
  | .ip4dec bytes => decide (bytes.length ≤ Config.rxMax)
  | .reset => true
  | .reserved0 => true
  | .reserved7 => true
  | .reservedD => true
  | .reservedE => true
  | .echoRequest _ _ _ => true
  | .echoReply _ _ _ _ => true
  | .ipv4Header fields options =>
    decide (5 ≤ fields.ihl.toNat) && decide (20 + options.length = 4 * fields.ihl.toNat)

end Sys2Proof
end

