-- ==== Sys2Proof/Safety.lean ====
section
/-! DEFINITION. What the claims about runs are stated in: the invariants of the block (R42), what a TX record carries (R82), and the measure that every timer event lowers (R191). -/

namespace Sys2Proof.Machine

/-- The sequence number of a transmitted request (R82); the other records carry none. -/
def txSequence : Record → Option Half
  | .tx _ bytes =>
    match icmpdec (bytes.take 8) with
    | .ok vi => some vi.sequenceNumber
    | .fail _ => none
  | .reply _ _ _ _ _ => none
  | .timeoutNote => none

/-- The sequence numbers of the TX records of an output stream, oldest first. -/
def txSequences (out : List Record) : List Nat := (out.filterMap txSequence).map BitVec.toNat

/-- What every step keeps: the ten items of R42, the premise of R33, and the canonical form of the buffers. -/
structure Inv (s : State) : Prop where
  /-- R42 item 1 -/
  sent_le_max : s.fsm ≠ .idle → s.sentCount ≤ s.maxCount
  /-- R42 item 2 -/
  awaiting_armed : s.fsm = .awaitingReply → s.tmrArmed = true ∧ 1 ≤ s.sentCount.toNat
  /-- R42 item 2, R116: the timestamp of the last send is not in the future -/
  sent_before_now : s.fsm = .awaitingReply → s.lastSendTimestamp ≤ s.now
  /-- R42 item 3 -/
  forced_timeout : s.tmrForced = true →
    s.tmrArmed = true ∧ s.tmrKind = .timeout ∧ 1 ≤ s.replyCount.toNat
  /-- R42 item 4 -/
  listening_awaiting : s.rxArmed = true → s.fsm = .awaitingReply
  /-- R42 item 5 -/
  deaf_answered : s.fsm = .awaitingReply → s.rxArmed = false →
    s.sentCount = s.maxCount ∧ 1 ≤ s.replyCount.toNat
  /-- R42 item 6 -/
  done_quiet : s.fsm = .done →
    s.tmrArmed = false ∧ s.rxArmed = false ∧ s.tmrForced = false ∧ s.sentCount = s.maxCount
  /-- R42 item 7 -/
  idle_quiet : s.fsm = .idle →
    s.tmrArmed = false ∧ s.rxArmed = false ∧ s.sentCount = 0#16 ∧ s.replyCount = 0#16
  /-- R42 item 8 -/
  never_sending : s.fsm ≠ .sending
  /-- R42 item 9 -/
  timeout_deadline : s.tmrArmed = true → s.tmrKind = .timeout →
    s.tmrDeadline = s.lastSendTimestamp + Config.tTimeout
  /-- R42 item 10: the latest TX records of `out` carry 1, 2, ..., `sent_count` -/
  sequence_numbers : List.range' 1 s.sentCount.toNat <:+ txSequences s.out
  /-- R25, R264: a session runs only on loaded configuration -/
  configured : s.fsm ≠ .idle → s.cfgValid = true
  /-- R33: no wrap within a session -/
  time_premise : timePremise s.now.toNat = true
  /-- the canonical form of RXBUF -/
  rxbuf_wf : Memory.wf s.rxbuf = true
  /-- the canonical form of TXBUF -/
  txbuf_wf : Memory.wf s.txbuf = true

/-- How many timer events a session still has to handle (R191): a TMO and an RSND for each request. -/
def timerEventsLeft (s : State) : Nat :=
  match s.fsm with
  | .awaitingReply =>
    2 * (s.maxCount.toNat - s.sentCount.toNat) + (if s.tmrKind = .timeout then 2 else 1)
  | .idle => 0
  | .sending => 0
  | .done => 0

/-- The two timer events (R94). -/
def isTimerEvent : Instr → Bool
  | .tmo => true
  | .rsnd => true
  | .cfg _ _ _ _ => false
  | .start => false
  | .rx _ => false
  | .adv _ => false
  | .csum _ _ _ _ _ => false
  | .csumchk _ => false
  | .icmpenc _ _ _ _ _ => false
  | .icmpdec _ => false
  | .ip4dec _ => false
  | .reset => false
  | .reserved0 => false
  | .reserved7 => false
  | .reservedD => false
  | .reservedE => false
  | .echoRequest _ _ _ => false
  | .echoReply _ _ _ _ => false
  | .ipv4Header _ _ => false

/-- Two states agree on everything that holds a value by R43 or is observed.  Left free: the configuration before CFG; the
timestamp and the timer's kind and deadline outside `AWAITING_REPLY`; `rx_len` and the buffers between operations (R34). -/
structure AgreeWhereValued (s s' : State) : Prop where
  fsm : s'.fsm = s.fsm
  cfgValid : s'.cfgValid = s.cfgValid
  sentCount : s'.sentCount = s.sentCount
  replyCount : s'.replyCount = s.replyCount
  rxArmed : s'.rxArmed = s.rxArmed
  tmrArmed : s'.tmrArmed = s.tmrArmed
  tmrForced : s'.tmrForced = s.tmrForced
  now : s'.now = s.now
  out : s'.out = s.out
  result : s'.result = s.result
  issues : s'.issues = s.issues
  configuration : s.cfgValid = true →
    s'.identifier = s.identifier ∧ s'.maxCount = s.maxCount ∧ s'.payloadSize = s.payloadSize ∧
      s'.targetEndpoint = s.targetEndpoint
  session : s.fsm = .awaitingReply →
    s'.lastSendTimestamp = s.lastSendTimestamp ∧ s'.tmrKind = s.tmrKind ∧
      s'.tmrDeadline = s.tmrDeadline

/-- The triple that decides what the block does next (R39, R182): `none` for a timer that is not armed. -/
def controlTriple (s : State) : Fsm × Option TmrKind × Bool :=
  (s.fsm, if s.tmrArmed then some s.tmrKind else none, s.rxArmed)

/-- The twelve operations of R89. -/
def isOperation : Instr → Bool
  | .cfg _ _ _ _ => true
  | .start => true
  | .rx _ => true
  | .tmo => true
  | .rsnd => true
  | .adv _ => true
  | .csum _ _ _ _ _ => true
  | .csumchk _ => true
  | .icmpenc _ _ _ _ _ => true
  | .icmpdec _ => true
  | .ip4dec _ => true
  | .reset => true
  | .reserved0 => false
  | .reserved7 => false
  | .reservedD => false
  | .reservedE => false
  | .echoRequest _ _ _ => false
  | .echoReply _ _ _ _ => false
  | .ipv4Header _ _ => false

/-- The five pure functions of R89. -/
def isPureFunction : Instr → Bool
  | .csum _ _ _ _ _ => true
  | .csumchk _ => true
  | .icmpenc _ _ _ _ _ => true
  | .icmpdec _ => true
  | .ip4dec _ => true
  | .cfg _ _ _ _ => false
  | .start => false
  | .rx _ => false
  | .tmo => false
  | .rsnd => false
  | .adv _ => false
  | .reset => false
  | .reserved0 => false
  | .reserved7 => false
  | .reservedD => false
  | .reservedE => false
  | .echoRequest _ _ _ => false
  | .echoReply _ _ _ _ => false
  | .ipv4Header _ _ => false

/-- The instructions that answer on the result port: the five pure functions (R90) and the three wire formats (log 6). -/
def answers : Instr → Bool
  | .csum _ _ _ _ _ => true
  | .csumchk _ => true
  | .icmpenc _ _ _ _ _ => true
  | .icmpdec _ => true
  | .ip4dec _ => true
  | .echoRequest _ _ _ => true
  | .echoReply _ _ _ _ => true
  | .ipv4Header _ _ => true
  | .cfg _ _ _ _ => false
  | .start => false
  | .rx _ => false
  | .tmo => false
  | .rsnd => false
  | .adv _ => false
  | .reset => false
  | .reserved0 => false
  | .reserved7 => false
  | .reservedD => false
  | .reservedE => false

/-- The enabling conditions as the table of R190 writes them.  A reserved code selects no operation (R91); a wire format has no row there, and stands as the codec it is presented to (log 6). -/
def Enabled (i : Instr) (s : State) : Prop :=
  match i with
  | .reset => True
  | .cfg _ _ _ _ => s.fsm = .idle
  | .start => s.fsm = .idle ∧ s.cfgValid = true
  | .rx datagram => s.rxArmed = true ∧ datagram.length ≤ 65535
  | .tmo =>
    s.tmrArmed = true ∧ s.tmrKind = .timeout ∧ (s.tmrForced = true ∨ s.tmrDeadline ≤ s.now)
  | .rsnd => s.tmrArmed = true ∧ s.tmrKind = .resend ∧ s.tmrDeadline ≤ s.now
  | .adv d => s.now.toNat + d.toNat + 3 * 1000000 < 2 ^ 64
  | .csum _ _ _ _ payload => payload.length ≤ 65535
  | .icmpenc _ _ _ _ payload => payload.length ≤ 65535
  | .csumchk message => 8 ≤ message.length ∧ message.length ≤ 65543
  | .icmpdec bytes => bytes.length ≤ 65535
  | .ip4dec bytes => bytes.length ≤ 65535
  | .reserved0 => False
  | .reserved7 => False
  | .reservedD => False
  | .reservedE => False
  | .echoRequest _ _ _ => True
  | .echoReply _ _ _ _ => True
  | .ipv4Header _ options => 20 + options.length ≤ 65535

/-- A datagram that passes every test of R179, with the views it decodes to. -/
def Accepts (s : State) (datagram : List Byte) (v4 : Ip4View) (vi : IcmpView) : Prop :=
  ip4dec datagram = .ok v4 ∧
    icmpdec ((datagram.drop (4 * v4.ihl.toNat)).take 8) = .ok vi ∧
    vi.type = 0#8 ∧ vi.identifier = s.identifier ∧ vi.sequenceNumber = s.sentCount

end Sys2Proof.Machine
end

