-- ==== Sys2Proof/Certificates/Slice0/Obligations.lean ====
section
/-! DEFINITION. The statements about the block, for the provers.  Each docstring names the rule of spec/ it rests on. -/

open Sys2Proof Sys2Proof.Machine

/-! ### Reset -/

/-- The reset values the spec gives (R43, the rows that state one). -/
def Obligations.ResetStateHoldsTheGivenValues : Prop :=
  State.reset.cfgValid = false ∧ State.reset.fsm = .idle ∧ State.reset.sentCount = 0#16 ∧
    State.reset.replyCount = 0#16 ∧ State.reset.rxArmed = false ∧
    State.reset.tmrArmed = false ∧ State.reset.tmrForced = false ∧ State.reset.out = []

/-- The invariant of R42 holds right after reset. -/
def Obligations.ResetStateMeetsTheInvariant : Prop := Inv State.reset

/-- RESET returns the block to IDLE from every state, and keeps `out` and `now` (R260); no earlier answer survives it (R135). -/
def Obligations.ResetOperationReturnsToIdle : Prop :=
  ∀ s : State, encodeWord .reset = [0x0F#8] ∧ ∃ t, exec .reset s = .next t ∧
    t.fsm = .idle ∧ t.cfgValid = false ∧ t.sentCount = 0#16 ∧ t.replyCount = 0#16 ∧
    t.rxArmed = false ∧ t.tmrArmed = false ∧ t.tmrForced = false ∧
    t.result = none ∧ t.out = s.out ∧ t.now = s.now

/-- A register that holds no value (R43, U9) is read by no instruction: before CFG, in a configured IDLE, in DONE, or between receives.  From two states that agree wherever the spec gives a value, every instruction is refused in both for the same reason, or runs in both and ends in states that agree again. -/
def Obligations.UnwrittenRegistersAreNeverRead : Prop :=
  ∀ (s s' : State) (i : Instr), Inv s → AgreeWhereValued s s' →
    (∀ r, exec i s = .refused r → exec i s' = .refused r) ∧
    ∀ t, exec i s = .next t → ∃ t', exec i s' = .next t' ∧ AgreeWhereValued t t'

/-! ### Decoding and stepping -/

/-- The event code map with the operand ports (R89, R90): sixteen codes, and no other one-byte word.  That an event code stands in the low half of one byte whose high half is 0 is the model's framing, log 5. -/
def Obligations.EventCodesSelectTheirOperations : Prop :=
  ∀ p : Ports,
    decode ⟨[0x00#8], p⟩ = .ok .reserved0 ∧
    decode ⟨[0x01#8], p⟩ = .ok (.cfg p.id p.max p.size p.dst) ∧
    decode ⟨[0x02#8], p⟩ = .ok .start ∧
    decode ⟨[0x03#8], p⟩ = .ok (.rx p.datagram) ∧
    decode ⟨[0x04#8], p⟩ = .ok .tmo ∧
    decode ⟨[0x05#8], p⟩ = .ok .rsnd ∧
    decode ⟨[0x06#8], p⟩ = .ok (.adv p.d) ∧
    decode ⟨[0x07#8], p⟩ = .ok .reserved7 ∧
    decode ⟨[0x08#8], p⟩ = .ok (.csum p.type p.code p.identifier p.sequenceNumber p.payload) ∧
    decode ⟨[0x09#8], p⟩ = .ok (.csumchk p.message) ∧
    decode ⟨[0x0A#8], p⟩ =
      .ok (.icmpenc p.type p.code p.identifier p.sequenceNumber p.payload) ∧
    decode ⟨[0x0B#8], p⟩ = .ok (.icmpdec p.bytes) ∧
    decode ⟨[0x0C#8], p⟩ = .ok (.ip4dec p.bytes) ∧
    decode ⟨[0x0D#8], p⟩ = .ok .reservedD ∧
    decode ⟨[0x0E#8], p⟩ = .ok .reservedE ∧
    decode ⟨[0x0F#8], p⟩ = .ok .reset ∧
    ∀ b : Byte, 16 ≤ b.toNat → decode ⟨[b], p⟩ = .error .eventNibble

/-- Three wire headers written out byte by byte (R82, R83): a request, a reply with a code, and the header of test vector H2. -/
def Obligations.WireHeadersSelectTheirFormats : Prop :=
  ∀ p : Ports,
    decode ⟨[0x08#8, 0x00#8, 0xE5#8, 0xCA#8, 0x12#8, 0x34#8, 0x00#8, 0x01#8], p⟩ =
      .ok (.echoRequest 0xE5CA#16 0x1234#16 0x0001#16) ∧
    decode ⟨[0x00#8, 0x05#8, 0xED#8, 0xC9#8, 0x12#8, 0x34#8, 0x00#8, 0x02#8], p⟩ =
      .ok (.echoReply 0x05#8 0xEDC9#16 0x1234#16 0x0002#16) ∧
    decode ⟨[0x46#8, 0x10#8, 0x00#8, 0x23#8, 0xAB#8, 0xCD#8, 0x40#8, 0x00#8, 0x80#8, 0x01#8,
        0x12#8, 0x34#8, 0xC0#8, 0xA8#8, 0x00#8, 0x01#8, 0x0A#8, 0x00#8, 0x00#8, 0x01#8,
        0x01#8, 0x01#8, 0x01#8, 0x01#8], p⟩ =
      .ok (.ipv4Header
        { ihl := 6#4, tos := 0x10#8, totalLength := 35#16, identification := 0xABCD#16,
          z := 0#1, df := 1#1, mf := 0#1, fragmentOffset := 0#13, ttl := 128#8, protocol := 1#8,
          headerChecksum := 0x1234#16, source := 0xC0A80001#32, destination := 0x0A000001#32 }
        [0x01#8, 0x01#8, 0x01#8, 0x01#8])

/-- No operand of any instruction is lost on its way through the encoding (R82, R83, R89, R90).  An IPv4 header is an instruction of the encoding only with an `ihl` of 5 or more and the option bytes it declares (R83 to R85); the encoding of any other is refused by the decoder. -/
def Obligations.DecodeOfEncodeIsTheInstruction : Prop :=
  ∀ i : Instr,
    (i.wellFormed = true → decode (encode i) = .ok i) ∧
    match i with
    | .ipv4Header h options =>
      (5 ≤ h.ihl.toNat → 20 + options.length = 4 * h.ihl.toNat →
        decode (encode i) = .ok (.ipv4Header h options)) ∧
      (h.ihl.toNat < 5 → decode (encode i) = .error .ipLength) ∧
      (5 ≤ h.ihl.toNat → 20 + options.length ≠ 4 * h.ihl.toNat →
        decode (encode i) = .error .ipOptions)
    | _ => decode (encode i) = .ok i

/-- Which words of 20 and more bytes are an IPv4 header (R83, R84, R85): the first nibble is 4, `ihl` is 5 or more, and the word has as many bytes as the header length says.  Such a word is one that IP4DEC decodes, options included.  That a word which is none is refused by the decoder, with a reason, is the model's framing, log 5. -/
def Obligations.Ipv4WordsDecodeExactlyWhenWhole : Prop :=
  ∀ (b0 : Byte) (rest : List Byte) (p : Ports), 19 ≤ rest.length →
    let version := b0.toNat / 16
    let ihl := b0.toNat % 16
    (version ≠ 4 → decode ⟨b0 :: rest, p⟩ = .error .ipFormat) ∧
    (version = 4 → ihl < 5 → decode ⟨b0 :: rest, p⟩ = .error .ipLength) ∧
    (version = 4 → 5 ≤ ihl → 1 + rest.length ≠ 4 * ihl →
      decode ⟨b0 :: rest, p⟩ = .error .ipOptions) ∧
    (version = 4 → 5 ≤ ihl → 1 + rest.length = 4 * ihl →
      ∃ h v, decode ⟨b0 :: rest, p⟩ = .ok (.ipv4Header h (rest.drop 19)) ∧
        h.ihl.toNat = ihl ∧ ip4dec (b0 :: rest) = .ok v ∧ v.ihl = h.ihl ∧
        v.source = h.source ∧ v.ttl = h.ttl ∧ v.options = rest.drop 19)

/-- No bit of a selecting word is lost by the decoder: the word is the encoding of what it decodes to. -/
def Obligations.EncodeOfDecodeIsTheWord : Prop :=
  ∀ (iss : Issue) (i : Instr), decode iss = .ok i → encodeWord i = iss.word

/-- A step takes the oldest issue and runs the instruction it decodes to; it waits when nothing is issued, and refuses a word that is no instruction (R69, R170; the waiting, which ends an earlier answer on the result port as every step does, and the framing of words are the model's own, log 5, log 7 and log 8). -/
def Obligations.StepRunsTheDecodedInstruction : Prop :=
  (∀ (s : State) (iss : Issue) (rest : List Issue) (i : Instr),
    s.issues = iss :: rest → decode iss = .ok i → step s = exec i { s with issues := rest }) ∧
  (∀ (s : State) (iss : Issue) (rest : List Issue) (e : DecodeError),
    s.issues = iss :: rest → decode iss = .error e → step s = .refused (.undecodable e)) ∧
  (∀ s : State, s.issues = [] → step s = .next { s with result := none })

/-- The four reserved event codes are refused in every state (R91). -/
def Obligations.ReservedCodesAreRefused : Prop :=
  (∀ p : Ports, decode ⟨[0x00#8], p⟩ = .ok .reserved0 ∧ decode ⟨[0x07#8], p⟩ = .ok .reserved7 ∧
    decode ⟨[0x0D#8], p⟩ = .ok .reservedD ∧ decode ⟨[0x0E#8], p⟩ = .ok .reservedE) ∧
  ∀ s : State,
    exec .reserved0 s = .refused (.reservedCode 0x0#4) ∧
    exec .reserved7 s = .refused (.reservedCode 0x7#4) ∧
    exec .reservedD s = .refused (.reservedCode 0xD#4) ∧
    exec .reservedE s = .refused (.reservedCode 0xE#4)

/-- Each of the twelve operations runs exactly when its enabling condition holds, and is refused otherwise (R190). -/
def Obligations.OperationsRunExactlyWhenEnabled : Prop :=
  ∀ (i : Instr) (s : State), isOperation i = true →
    (Enabled i s → ∃ t, exec i s = .next t) ∧ (¬ Enabled i s → ∃ r, exec i s = .refused r)

/-- The block has no fault state: no step from any state ends in a fault (R9). -/
def Obligations.NoStepFaults : Prop :=
  ∀ (s : State) (f : Fault), step s ≠ .fault f

/-! ### Checksum unit -/

/-- The 16-bit words of a byte sequence and the end-around-carry fold (R110). -/
def Obligations.WordsPairBytesAndFoldAddsTheHalves : Prop :=
  (∀ P : List Byte, (words P).length = (P.length + 1) / 2) ∧
  (∀ (P : List Byte) (j : Nat) (a b : Byte), P[2 * j]? = some a → P[2 * j + 1]? = some b →
    ∃ w, (words P)[j]? = some w ∧ w.toNat = a.toNat * 256 + b.toNat) ∧
  (∀ (P : List Byte) (j : Nat) (a : Byte), P[2 * j]? = some a → P.length = 2 * j + 1 →
    ∃ w, (words P)[j]? = some w ∧ w.toNat = a.toNat * 256) ∧
  (∀ S : Word, (fold S).toNat = S.toNat / 65536 + S.toNat % 65536 ∧ (fold S).toNat < 2 ^ 17)

/-- CSUM: the complement of the twice folded sum of the header words and the payload words, computed on natural numbers (R111). -/
def Obligations.CsumIsTheComplementOfTheFoldedSum : Prop :=
  ∀ (type code : Byte) (identifier sequenceNumber : Half) (P : List Byte) (s : State),
    P.length ≤ 65535 →
    let S := type.toNat * 256 + code.toNat + identifier.toNat + sequenceNumber.toNat
      + ((words P).map BitVec.toNat).sum
    let S1 := S / 65536 + S % 65536
    let S2 := S1 / 65536 + S1 % 65536
    encodeWord (.csum type code identifier sequenceNumber P) = [0x08#8] ∧
    ∃ c : Half, c.toNat = 65535 - S2 ∧
      exec (.csum type code identifier sequenceNumber P) s =
        .next { s with result := some (.checksum c) }

/-- The 32-bit accumulator of CSUM never wraps on a payload of at most 65535 bytes, and a longer one is refused (R112). -/
def Obligations.ChecksumAccumulatorNeverWraps : Prop :=
  ∀ (type code : Byte) (identifier sequenceNumber : Half) (P : List Byte) (s : State),
    (P.length ≤ 65535 →
      (accumulate (headerSum type code identifier sequenceNumber) (words P)).toNat =
        type.toNat * 256 + code.toNat + identifier.toNat + sequenceNumber.toNat
          + ((words P).map BitVec.toNat).sum ∧
      (accumulate (headerSum type code identifier sequenceNumber) (words P)).toNat
        ≤ 0x80027FFD) ∧
    (65535 < P.length →
      exec (.csum type code identifier sequenceNumber P) s = .refused .operandDomain)

/-- Two folds are enough for every 32-bit sum (R113). -/
def Obligations.TwoFoldsAreEnough : Prop :=
  ∀ S : Word,
    (fold S).toNat ≤ 0x1FFFE ∧ ((fold S).toNat / 65536 = 0 ∨ (fold S).toNat / 65536 = 1) ∧
    ((fold S).toNat / 65536 = 1 → (fold S).toNat % 65536 ≤ 0xFFFE) ∧
    (fold (fold S)).toNat ≤ 0xFFFF ∧
    ((~~~fold (fold S)).extractLsb' 0 16).toNat = 0xFFFF - (fold (fold S)).toNat ∧
    (fold (fold S)).toNat % 0xFFFF = S.toNat % 0xFFFF ∧
    ((fold (fold S)).toNat = 0 → S.toNat = 0) ∧
    ((fold (fold S)).toNat = 0xFFFF ↔ S.toNat ≠ 0 ∧ S.toNat % 0xFFFF = 0)

/-- The integrity property: the words of a message as transmitted, checksum included, fold to 0xFFFF (R114). -/
def Obligations.TransmittedMessageFoldsToAllOnes : Prop :=
  ∀ (type code : Byte) (identifier sequenceNumber : Half) (P : List Byte), P.length ≤ 65535 →
    let M := icmpenc type code identifier sequenceNumber P ++ P
    let T := ((words M).map BitVec.toNat).sum
    0 < T ∧ T % 0xFFFF = 0 ∧ T < 2 ^ 32 ∧
      (fold (fold (BitVec.ofNat 32 T))).toNat = 0xFFFF

/-- CSUMCHK recomputes the checksum and compares; a message outside 8 to 65543 bytes is refused (R115). -/
def Obligations.CsumchkRecomputesAndCompares : Prop :=
  (∀ (b0 b1 b2 b3 b4 b5 b6 b7 : Byte) (P : List Byte) (s : State), P.length ≤ 65535 →
    exec (.csumchk (b0 :: b1 :: b2 :: b3 :: b4 :: b5 :: b6 :: b7 :: P)) s =
      .next { s with result := some (.ok
        (decide (be16 b2 b3 = csum b0 b1 (be16 b4 b5) (be16 b6 b7) P))) }) ∧
  (∀ (M : List Byte) (s : State), encodeWord (.csumchk M) = [0x09#8] ∧
    (M.length < 8 ∨ 65543 < M.length → exec (.csumchk M) s = .refused .operandDomain))

/-! ### ICMP header codec -/

/-- ICMPENC builds the 8 header bytes, all fields big-endian, with the checksum of CSUM (R130). -/
def Obligations.IcmpencBuildsTheHeader : Prop :=
  ∀ (type code : Byte) (identifier sequenceNumber : Half) (P : List Byte) (s : State),
    encodeWord (.icmpenc type code identifier sequenceNumber P) = [0x0A#8] ∧
    (P.length ≤ 65535 →
      let c := csum type code identifier sequenceNumber P
      exec (.icmpenc type code identifier sequenceNumber P) s =
        .next { s with result := some (.header [type, code,
          BitVec.ofNat 8 (c.toNat / 256), BitVec.ofNat 8 c.toNat,
          BitVec.ofNat 8 (identifier.toNat / 256), BitVec.ofNat 8 identifier.toNat,
          BitVec.ofNat 8 (sequenceNumber.toNat / 256),
          BitVec.ofNat 8 sequenceNumber.toNat]) }) ∧
    (65535 < P.length →
      exec (.icmpenc type code identifier sequenceNumber P) s = .refused .operandDomain)

/-- ICMPDEC decodes exactly 8 bytes, whatever they are, and fails on every other length (R131, R132). -/
def Obligations.IcmpdecDecodesExactlyEightBytes : Prop :=
  (∀ (b0 b1 b2 b3 b4 b5 b6 b7 : Byte) (s : State), ∃ v : IcmpView,
    exec (.icmpdec [b0, b1, b2, b3, b4, b5, b6, b7]) s =
      .next { s with result := some (.icmp (.ok v)) } ∧
    v.type = b0 ∧ v.code = b1 ∧ v.checksum.toNat = b2.toNat * 256 + b3.toNat ∧
    v.identifier.toNat = b4.toNat * 256 + b5.toNat ∧
    v.sequenceNumber.toNat = b6.toNat * 256 + b7.toNat) ∧
  (∀ (B : List Byte) (s : State), encodeWord (.icmpdec B) = [0x0B#8] ∧
    (B.length ≤ 65535 → B.length ≠ 8 →
      exec (.icmpdec B) s = .next { s with result := some (.icmp (.fail .icmpShort)) }) ∧
    (65535 < B.length → exec (.icmpdec B) s = .refused .operandDomain))

/-- What ICMPENC builds, ICMPDEC reads back and CSUMCHK accepts (R134). -/
def Obligations.IcmpCodecRoundTrip : Prop :=
  ∀ (type code : Byte) (identifier sequenceNumber : Half) (P : List Byte),
    icmpdec (icmpenc type code identifier sequenceNumber P) =
      .ok { type := type, code := code,
            checksum := csum type code identifier sequenceNumber P,
            identifier := identifier, sequenceNumber := sequenceNumber } ∧
    csumchk (icmpenc type code identifier sequenceNumber P ++ P) = true

/-! ### IPv4 header decoder -/

/-- IP4DEC: the four tests in order, then every field of the view from its bytes (R150, R151, R229), on natural numbers. -/
def Obligations.Ip4decTestsThenReadsTheFields : Prop :=
  (∀ (B : List Byte) (s : State), encodeWord (.ip4dec B) = [0x0C#8] ∧
    (B.length < 20 →
      exec (.ip4dec B) s = .next { s with result := some (.ip4 (.fail .ip4Short)) }) ∧
    (65535 < B.length → exec (.ip4dec B) s = .refused .operandDomain)) ∧
  (∀ (b0 b1 b2 b3 b4 b5 b6 b7 b8 b9 b10 b11 b12 b13 b14 b15 b16 b17 b18 b19 : Byte)
    (rest : List Byte) (s : State), 20 + rest.length ≤ 65535 →
    ∃ r, exec (.ip4dec (b0 :: b1 :: b2 :: b3 :: b4 :: b5 :: b6 :: b7 :: b8 :: b9 :: b10 :: b11 ::
        b12 :: b13 :: b14 :: b15 :: b16 :: b17 :: b18 :: b19 :: rest)) s =
      .next { s with result := some (.ip4 r) } ∧
    let version := b0.toNat / 16
    let ihl := b0.toNat % 16
    (version ≠ 4 → r = .fail .ip4Version) ∧
    (version = 4 → ihl < 5 → r = .fail .ip4Ihl) ∧
    (version = 4 → 5 ≤ ihl → 20 + rest.length < 4 * ihl → r = .fail .ip4Trunc) ∧
    (version = 4 → 5 ≤ ihl → 4 * ihl ≤ 20 + rest.length → ∃ v, r = .ok v ∧
      v.version.toNat = 4 ∧ v.ihl.toNat = ihl ∧ v.tos = b1 ∧
      v.totalLength.toNat = b2.toNat * 256 + b3.toNat ∧
      v.identification.toNat = b4.toNat * 256 + b5.toNat ∧
      v.df.toNat = b6.toNat / 64 % 2 ∧ v.mf.toNat = b6.toNat / 32 % 2 ∧
      v.fragmentOffset.toNat = b6.toNat % 32 * 256 + b7.toNat ∧
      v.ttl = b8 ∧ v.protocol = b9 ∧
      v.headerChecksum.toNat = b10.toNat * 256 + b11.toNat ∧
      v.source.toNat =
        b12.toNat * 2 ^ 24 + b13.toNat * 2 ^ 16 + b14.toNat * 2 ^ 8 + b15.toNat ∧
      v.destination.toNat =
        b16.toNat * 2 ^ 24 + b17.toNat * 2 ^ 16 + b18.toNat * 2 ^ 8 + b19.toNat ∧
      v.options = rest.take (4 * ihl - 20) ∧ v.headerLengthBytes.toNat = 4 * ihl))

/-- What a successful IPv4 decode guarantees (R152). -/
def Obligations.DecodedIpv4HeaderIsConsistent : Prop :=
  ∀ (B : List Byte) (v : Ip4View), ip4dec B = .ok v →
    v.version = 4#4 ∧ 5 ≤ v.ihl.toNat ∧ v.ihl.toNat ≤ 15 ∧
    v.headerLengthBytes.toNat = 4 * v.ihl.toNat ∧
    v.options.length + 20 = v.headerLengthBytes.toNat ∧ v.options.length ≤ 40 ∧
    v.headerLengthBytes.toNat ≤ B.length

/-- Whether an IPv4 header decodes, and with which failure, depends on the length of the buffer and on its first byte alone (R155). -/
def Obligations.Ipv4AcceptanceDependsOnFirstByte : Prop :=
  ∀ (B B' : List Byte) (f : Failure), B.length = B'.length → B[0]? = B'[0]? →
    ip4dec B = .fail f → ip4dec B' = .fail f

/-! ### Buffers -/

/-- A big-endian write reads back and touches no other offset; every read that lies inside a filled buffer, of 1, 2 or 4 bytes or of a whole range, gives the bytes that lie there, big-endian (R61, R62, R63).  A range that reaches beyond the filled bytes reads as nothing: such a byte holds no value, log 9. -/
def Obligations.BufferAccessesAreBigEndian : Prop :=
  (∀ (m : Memory) (addr : Nat) (v : Half),
    memRead2 (memWrite2 addr v m) addr = some v ∧
    readByte (memWrite2 addr v m) addr = some (BitVec.ofNat 8 (v.toNat / 256)) ∧
    readByte (memWrite2 addr v m) (addr + 1) = some (BitVec.ofNat 8 v.toNat) ∧
    ∀ x, x ≠ addr → x ≠ addr + 1 → readByte (memWrite2 addr v m) x = readByte m x) ∧
  (∀ (m : Memory) (addr : Nat) (v : Byte),
    memRead1 (memWrite1 addr v m) addr = some v ∧
    ∀ x, x ≠ addr → readByte (memWrite1 addr v m) x = readByte m x) ∧
  (∀ (B : List Byte) (addr : Nat) (b0 : Byte), B[addr]? = some b0 →
    memRead1 (loadBytes 0 B) addr = some b0) ∧
  (∀ (B : List Byte) (addr : Nat) (b0 b1 : Byte), B[addr]? = some b0 →
    B[addr + 1]? = some b1 →
    ∃ h, memRead2 (loadBytes 0 B) addr = some h ∧ h.toNat = b0.toNat * 256 + b1.toNat) ∧
  (∀ (B : List Byte) (addr : Nat) (b0 b1 b2 b3 : Byte), B[addr]? = some b0 →
    B[addr + 1]? = some b1 → B[addr + 2]? = some b2 → B[addr + 3]? = some b3 →
    ∃ w, memRead4 (loadBytes 0 B) addr = some w ∧
      w.toNat = b0.toNat * 2 ^ 24 + b1.toNat * 2 ^ 16 + b2.toNat * 2 ^ 8 + b3.toNat) ∧
  (∀ (B : List Byte) (addr n : Nat),
    (addr + n ≤ B.length → readRange (loadBytes 0 B) addr n = some ((B.drop addr).take n)) ∧
    (0 < n → B.length < addr + n → readRange (loadBytes 0 B) addr n = none)) ∧
  (∀ (m : Memory) (header : List Byte) (addr n : Nat),
    (n < header.length → readByte (writeBytes addr header m) (addr + n) = header[n]?) ∧
    ∀ x, x < addr ∨ addr + header.length ≤ x →
      readByte (writeBytes addr header m) x = readByte m x)

/-! ### Session operations

None of them answers on the result port: it is empty after each (R135; the field is the model's own, log 7). -/

/-- `arm` starts a wait (R176). -/
def Obligations.ArmStartsTheWait : Prop :=
  ∀ (kind : TmrKind) (deadline : Time) (s : State),
    arm kind deadline s = { s with
      tmrArmed := true, tmrKind := kind, tmrDeadline := deadline, tmrForced := false }

/-- `cancel_timeout` completes a TIMEOUT wait early and does nothing else; TMO is then enabled (R177). -/
def Obligations.CancelCompletesTheTimeoutWaitEarly : Prop :=
  ∀ s : State,
    (s.tmrArmed = true → s.tmrKind = .timeout →
      cancelTimeout s = { s with tmrForced := true } ∧
      ∃ t, exec .tmo (cancelTimeout s) = .next t) ∧
    (s.tmrArmed = false ∨ s.tmrKind = .resend → cancelTimeout s = s) ∧
    cancelTimeout (cancelTimeout s) = cancelTimeout s

/-- CFG loads the four configuration registers in IDLE and is refused elsewhere (R171).  The result port is empty afterwards (log 7). -/
def Obligations.CfgLoadsTheConfiguration : Prop :=
  ∀ (id max size : Half) (dst : Word) (s : State),
    encodeWord (.cfg id max size dst) = [0x01#8] ∧
    (s.fsm = .idle → exec (.cfg id max size dst) s = .next { s with
      identifier := id, maxCount := max, payloadSize := size, targetEndpoint := dst,
      cfgValid := true, result := none }) ∧
    (s.fsm ≠ .idle → exec (.cfg id max size dst) s = .refused .notEnabled)

/-- START arms the listener and sends one request, or ends the session when `max_count` is already reached (R172, with the body of R173).  What TXBUF holds afterwards is left open; the result port is empty (log 7). -/
def Obligations.StartSendsTheFirstRequest : Prop :=
  ∀ s : State,
    encodeWord .start = [0x02#8] ∧
    (s.fsm ≠ .idle ∨ s.cfgValid = false → exec .start s = .refused .notEnabled) ∧
    (s.fsm = .idle → s.cfgValid = true → s.sentCount = s.maxCount →
      exec .start s = .next { s with rxArmed := false, fsm := .done, result := none }) ∧
    (s.fsm = .idle → s.cfgValid = true → s.sentCount ≠ s.maxCount →
      let P := List.replicate s.payloadSize.toNat Config.fillByte
      let n := s.sentCount + 1#16
      let c := csum 8#8 0#8 s.identifier n P
      ∃ t, exec .start s = .next t ∧ t = { s with
        fsm := .awaitingReply, rxArmed := true, sentCount := n, replyCount := 0#16,
        lastSendTimestamp := s.now, tmrArmed := true, tmrKind := .timeout,
        tmrDeadline := s.now + 2000000#64, tmrForced := false, txbuf := t.txbuf,
        result := none,
        out := s.out ++ [.tx s.targetEndpoint ([8#8, 0#8, hi8 c, lo8 c, hi8 s.identifier,
          lo8 s.identifier, hi8 n, lo8 n] ++ P)] })

/-- RSND sends the next request, or ends the session after the last one (R174, with the body of R173).  What TXBUF holds afterwards is left open; the result port is empty (log 7). -/
def Obligations.RsndSendsTheNextRequest : Prop :=
  ∀ s : State,
    encodeWord .rsnd = [0x05#8] ∧
    (¬ (s.tmrArmed = true ∧ s.tmrKind = .resend ∧ s.tmrDeadline ≤ s.now) →
      exec .rsnd s = .refused .notEnabled) ∧
    (s.tmrArmed = true → s.tmrKind = .resend → s.tmrDeadline ≤ s.now →
      s.sentCount = s.maxCount →
      exec .rsnd s = .next { s with
        tmrArmed := false, tmrForced := false, rxArmed := false, fsm := .done,
        result := none }) ∧
    (s.tmrArmed = true → s.tmrKind = .resend → s.tmrDeadline ≤ s.now →
      s.sentCount ≠ s.maxCount →
      let P := List.replicate s.payloadSize.toNat Config.fillByte
      let n := s.sentCount + 1#16
      let c := csum 8#8 0#8 s.identifier n P
      ∃ t, exec .rsnd s = .next t ∧ t = { s with
        fsm := .awaitingReply, sentCount := n, replyCount := 0#16,
        lastSendTimestamp := s.now, tmrArmed := true, tmrKind := .timeout,
        tmrDeadline := s.now + 2000000#64, tmrForced := false, txbuf := t.txbuf,
        result := none,
        out := s.out ++ [.tx s.targetEndpoint ([8#8, 0#8, hi8 c, lo8 c, hi8 s.identifier,
          lo8 s.identifier, hi8 n, lo8 n] ++ P)] })

/-- TMO reports an unanswered request and always arms the RESEND wait one second from the step (R175).  The result port is empty afterwards (log 7). -/
def Obligations.TmoReportsAndArmsTheResendWait : Prop :=
  ∀ s : State,
    encodeWord .tmo = [0x04#8] ∧
    (s.tmrArmed = true → s.tmrKind = .timeout → s.tmrForced = true ∨ s.tmrDeadline ≤ s.now →
      exec .tmo s = .next { s with
        tmrArmed := true, tmrKind := .resend, tmrDeadline := s.now + 1000000#64,
        tmrForced := false, result := none,
        out := s.out ++ (if s.replyCount = 0#16 then [.timeoutNote] else []) }) ∧
    (¬ (s.tmrArmed = true ∧ s.tmrKind = .timeout ∧
        (s.tmrForced = true ∨ s.tmrDeadline ≤ s.now)) →
      exec .tmo s = .refused .notEnabled)

/-- A completed wait raises exactly one of TMO and RSND, the one its kind selects, and TMR stands for it (R94). -/
def Obligations.TimerRaisesExactlyOneEvent : Prop :=
  ∀ s : State, Inv s → s.tmrArmed = true → s.tmrForced = true ∨ s.tmrDeadline ≤ s.now →
    (s.tmrKind = .timeout → (∃ t, exec .tmo s = .next t) ∧
      exec .rsnd s = .refused .notEnabled ∧ expandLine .tmr s = some [.tmo]) ∧
    (s.tmrKind = .resend → (∃ t, exec .rsnd s = .next t) ∧
      exec .tmo s = .refused .notEnabled ∧ expandLine .tmr s = some [.rsnd])

/-- RX on an accepted datagram: the reply is reported with its byte count, source, sequence number, TTL and round-trip time, the first reply cancels a TIMEOUT wait, and the listener is armed again unless this was the last request (R178, R179, R180).  What RXBUF and `rx_len` hold afterwards is left open; the result port is empty (log 7). -/
def Obligations.RxReportsAnAcceptedReply : Prop :=
  ∀ (D : List Byte) (s : State) (v4 : Ip4View) (vi : IcmpView),
    s.rxArmed = true → D.length ≤ 65535 → Accepts s D v4 vi →
    ∃ t, exec (.rx D) s = .next t ∧ t = { s with
      rxbuf := t.rxbuf, rxLen := t.rxLen, result := none,
      rxArmed := !decide (s.sentCount = s.maxCount),
      tmrForced := if s.replyCount = 0#16 ∧ s.tmrArmed = true ∧ s.tmrKind = .timeout then true
        else s.tmrForced,
      replyCount := if s.replyCount = 0xFFFF#16 then 0xFFFF#16 else s.replyCount + 1#16,
      out := s.out ++ [.reply (BitVec.ofNat 16 (D.length - 4 * v4.ihl.toNat)) v4.source
        s.sentCount v4.ttl (s.now - s.lastSendTimestamp)] }

/-- RX on every other datagram: silently discarded, every register as before, the listener armed again (R185, R221, R222).  What RXBUF and `rx_len` hold afterwards is left open; the result port is empty (log 7). -/
def Obligations.RxDiscardsEveryOtherDatagram : Prop :=
  ∀ (D : List Byte) (s : State), s.rxArmed = true → D.length ≤ 65535 →
    (∀ v4 vi, ¬ Accepts s D v4 vi) →
    ∃ t, exec (.rx D) s = .next t ∧
      t = { s with rxbuf := t.rxbuf, rxLen := t.rxLen, rxArmed := true, result := none }

/-- RX is refused while the listener is off and for a datagram longer than RXBUF (R190). -/
def Obligations.RxIsRefusedWithoutListener : Prop :=
  ∀ (D : List Byte) (s : State), encodeWord (.rx D) = [0x03#8] ∧
    (s.rxArmed = false → exec (.rx D) s = .refused .notEnabled) ∧
    (s.rxArmed = true → 65535 < D.length → exec (.rx D) s = .refused .operandDomain)

/-- Whether a datagram is reported does not depend on the fields that are never tested: two datagrams of one length that agree in the first byte and in the type, identifier and sequence number of the ICMP header are both reported or both discarded (R93, R133). -/
def Obligations.UntestedFieldsDoNotDecide : Prop :=
  ∀ (D D' : List Byte) (s t t' : State), D.length = D'.length → D[0]? = D'[0]? →
    (∀ b0 : Byte, D[0]? = some b0 → ∀ k ∈ [0, 4, 5, 6, 7],
      D[4 * (b0.toNat % 16) + k]? = D'[4 * (b0.toNat % 16) + k]?) →
    exec (.rx D) s = .next t → exec (.rx D') s = .next t' →
    (t.out = s.out ↔ t'.out = s.out)

/-- ADV advances `now` and changes no other register, and is refused where time would pass the no-wrap premise (R181).  The result port is empty afterwards (log 7). -/
def Obligations.AdvAdvancesTimeAlone : Prop :=
  ∀ (d : Time) (s : State), encodeWord (.adv d) = [0x06#8] ∧
    (s.now.toNat + d.toNat + 3 * 1000000 < 2 ^ 64 →
      exec (.adv d) s = .next { s with now := s.now + d, result := none } ∧
      (s.now + d).toNat = s.now.toNat + d.toNat) ∧
    (2 ^ 64 ≤ s.now.toNat + d.toNat + 3 * 1000000 →
      exec (.adv d) s = .refused .timePremise)

/-- The pure functions write no register and read none: the state stays, and the result is the same from every state (R8, R89).  The result port is the model's own field, log 7. -/
def Obligations.PureFunctionsTouchNoRegister : Prop :=
  ∀ (i : Instr) (s s' t : State), isPureFunction i = true → exec i s = .next t →
    t = { s with result := t.result } ∧
      ∃ t', exec i s' = .next t' ∧ t'.result = t.result

/-- A built header and a decoded view do not survive the operation that made them (R36, R37, R135, R158).  After a step the result port holds an answer exactly when the step ran a pure function or a wire format, and then its own: what the port holds depends on the operation just run and its operands, and on nothing that was there before.  That the answer stands in the state at all, between its own step and the next, is the model's choice, log 7. -/
def Obligations.ResultsDoNotOutliveTheirOperation : Prop :=
  ∀ s t : State, step s = .next t →
    (s.issues = [] → t.result = none) ∧
    ∀ (iss : Issue) (rest : List Issue) (i : Instr), s.issues = iss :: rest →
      decode iss = .ok i →
      (t.result ≠ none ↔ answers i = true) ∧
      ∀ s₀ t₀ : State, exec i s₀ = .next t₀ → t₀.result = t.result

/-- The model's own meaning of the three wire formats (log 6): the bytes are decoded by the block's own decoders, and nothing but the result port changes.  The answer is the same from every state: it shows nothing of the session. -/
def Obligations.WireFormatsAreDecoded : Prop :=
  (∀ (c i q : Half) (s : State),
    exec (.echoRequest c i q) s = .next { s with result := some (.icmp
      (.ok { type := 8#8, code := 0#8, checksum := c, identifier := i, sequenceNumber := q })) }) ∧
  (∀ (k : Byte) (c i q : Half) (s : State),
    exec (.echoReply k c i q) s = .next { s with result := some (.icmp
      (.ok { type := 0#8, code := k, checksum := c, identifier := i, sequenceNumber := q })) }) ∧
  (∀ (h : Ip4Fields) (options : List Byte) (s : State),
    (20 + options.length ≤ 65535 → ∃ r,
      exec (.ipv4Header h options) s = .next { s with result := some (.ip4 r) } ∧
      (h.ihl.toNat < 5 → r = .fail .ip4Ihl) ∧
      (5 ≤ h.ihl.toNat → 20 + options.length < 4 * h.ihl.toNat → r = .fail .ip4Trunc) ∧
      (5 ≤ h.ihl.toNat → 4 * h.ihl.toNat ≤ 20 + options.length → ∃ v, r = .ok v ∧
        v.ihl = h.ihl ∧ v.tos = h.tos ∧ v.totalLength = h.totalLength ∧
        v.identification = h.identification ∧ v.df = h.df ∧ v.mf = h.mf ∧
        v.fragmentOffset = h.fragmentOffset ∧ v.ttl = h.ttl ∧ v.protocol = h.protocol ∧
        v.headerChecksum = h.headerChecksum ∧ v.source = h.source ∧
        v.destination = h.destination ∧ v.options = options.take (4 * h.ihl.toNat - 20))) ∧
    (65535 < 20 + options.length →
      exec (.ipv4Header h options) s = .refused .operandDomain))

/-! ### The whole machine -/

/-- Every step keeps the invariant of R42. -/
def Obligations.EveryStepKeepsTheInvariant : Prop :=
  ∀ s t : State, Inv s → step s = .next t → Inv t

/-- The output stream is append-only, over every step, RESET among them (R35). -/
def Obligations.OutputIsAppendOnly : Prop :=
  ∀ s t : State, step s = .next t → s.out <+: t.out

/-- Each kind of record comes from its own operations only, one record an operation (R20, R35, R182). -/
def Obligations.RecordsComeFromTheirOperations : Prop :=
  ∀ (i : Instr) (s t : State), exec i s = .next t →
    t.out = s.out ∨
    (∃ dst bytes, t.out = s.out ++ [.tx dst bytes] ∧ (i = .start ∨ i = .rsnd)) ∨
    (∃ n src q ttl rtt D, t.out = s.out ++ [.reply n src q ttl rtt] ∧ i = .rx D) ∨
    (t.out = s.out ++ [.timeoutNote] ∧ i = .tmo ∧ s.replyCount = 0#16)

/-- A transmitted request is an echo request of this session, to its target, with the next sequence number, never above `max_count` (R184). -/
def Obligations.RequestsCarryTheNextSequenceNumber : Prop :=
  ∀ (i : Instr) (s t : State) (dst : Word) (bytes : List Byte), Inv s →
    exec i s = .next t → t.out = s.out ++ [.tx dst bytes] →
    dst = s.targetEndpoint ∧ bytes.length = 8 + s.payloadSize.toNat ∧
    ∃ v, icmpdec (bytes.take 8) = .ok v ∧ v.type = 8#8 ∧ v.code = 0#8 ∧
      v.identifier = s.identifier ∧
      v.sequenceNumber.toNat = s.sentCount.toNat + 1 ∧
      v.sequenceNumber.toNat ≤ s.maxCount.toNat ∧ t.sentCount = v.sequenceNumber

/-- From START to the next RESET the configuration does not change, and CFG is refused (R26, R264). -/
def Obligations.ConfigurationIsFrozenInASession : Prop :=
  ∀ s : State, s.fsm ≠ .idle →
    (∀ id max size dst, exec (.cfg id max size dst) s = .refused .notEnabled) ∧
    ∀ (i : Instr) (t : State), i ≠ .reset → exec i s = .next t →
      t.identifier = s.identifier ∧ t.maxCount = s.maxCount ∧ t.payloadSize = s.payloadSize ∧
      t.targetEndpoint = s.targetEndpoint ∧ t.cfgValid = s.cfgValid

/-- DONE is terminal: every session operation but RESET and ADV is refused, and no operation but RESET leaves it or emits a record (R188). -/
def Obligations.DoneIsTerminal : Prop :=
  ∀ s : State, Inv s → s.fsm = .done →
    (∀ id max size dst, exec (.cfg id max size dst) s = .refused .notEnabled) ∧
    exec .start s = .refused .notEnabled ∧
    (∀ D, exec (.rx D) s = .refused .notEnabled) ∧
    exec .tmo s = .refused .notEnabled ∧ exec .rsnd s = .refused .notEnabled ∧
    ∀ (i : Instr) (t : State), i ≠ .reset → exec i s = .next t →
      t.fsm = .done ∧ t.rxArmed = false ∧ t.tmrArmed = false ∧ t.out = s.out ∧
      t.sentCount = s.sentCount

/-- The transitions of the state, the timer and the listener (R182). -/
def Obligations.ControlMovesAsTheTransitionTable : Prop :=
  ∀ (i : Instr) (s t : State), Inv s → exec i s = .next t →
    match i with
    | .reset => controlTriple t = (.idle, none, false)
    | .cfg _ _ _ _ =>
      controlTriple s = (.idle, none, false) ∧ controlTriple t = (.idle, none, false)
    | .start =>
      controlTriple s = (.idle, none, false) ∧
      controlTriple t = if s.maxCount = 0#16 then (.done, none, false)
        else (.awaitingReply, some .timeout, true)
    | .tmo =>
      controlTriple s = (.awaitingReply, some .timeout, s.rxArmed) ∧
      controlTriple t = (.awaitingReply, some .resend, s.rxArmed)
    | .rsnd =>
      controlTriple s = (.awaitingReply, some .resend, s.rxArmed) ∧
      controlTriple t = if s.sentCount = s.maxCount then (.done, none, false)
        else (.awaitingReply, some .timeout, true)
    | .rx _ =>
      controlTriple s = (.awaitingReply, some s.tmrKind, true) ∧
      controlTriple t = (.awaitingReply, some s.tmrKind,
        decide (t.out = s.out ∨ s.sentCount ≠ s.maxCount))
    | _ => controlTriple t = controlTriple s

/-- Time never decreases, over every step (R33). -/
def Obligations.TimeNeverDecreases : Prop :=
  ∀ s t : State, step s = .next t → s.now.toNat ≤ t.now.toNat

/-- How a session ends (R191).  Without RESET and START, a TMO or an RSND lowers the number of timer events left by exactly one and every other instruction leaves it; the one that lowers it to 0 ends in DONE; START leaves two for each request.  So a run from AWAITING_REPLY is in DONE exactly when it has handled as many timer events as were left, whatever else happened in it; and the next timer event can always be reached by letting time pass.  That an enabled timer event is handled at last is the premise of fairness, log 14, and no part of the statement. -/
def Obligations.TimerEventsRunOut : Prop :=
  (∀ (i : Instr) (s t : State), Inv s → exec i s = .next t → i ≠ .reset → i ≠ .start →
    timerEventsLeft s = timerEventsLeft t + (if isTimerEvent i then 1 else 0) ∧
    (isTimerEvent i = true → timerEventsLeft t = 0 → t.fsm = .done)) ∧
  (∀ s t : State, Inv s → exec .start s = .next t → timerEventsLeft t = 2 * s.maxCount.toNat) ∧
  (∀ (is : List Instr) (s t : State), Inv s → s.fsm = .awaitingReply → .reset ∉ is →
    execAll is s = .next t →
    (is.filter isTimerEvent).length + timerEventsLeft t = timerEventsLeft s ∧
    (t.fsm = .done ↔ (is.filter isTimerEvent).length = timerEventsLeft s)) ∧
  (∀ s : State, Inv s → s.fsm = .awaitingReply →
    s.tmrDeadline.toNat + 3 * 1000000 < 2 ^ 64 →
    ∃ d s' t, exec (.adv d) s = .next s' ∧ exec (timerEvent s.tmrKind) s' = .next t)

/-- The two orders of a reply and a due timeout (R228, R266): both run, both end in the same registers, and they differ only in whether the notification precedes the REPLY record of the datagram; never is the REPLY followed by the notification. -/
def Obligations.RaceOrdersDifferOnlyInTheNotification : Prop :=
  ∀ (D : List Byte) (s : State) (v4 : Ip4View) (vi : IcmpView), Inv s → s.rxArmed = true →
    s.tmrKind = .timeout → s.replyCount = 0#16 → s.tmrDeadline ≤ s.now → D.length ≤ 65535 →
    Accepts s D v4 vi →
    let reply : Record := .reply (BitVec.ofNat 16 (D.length - 4 * v4.ihl.toNat)) v4.source
      s.sentCount v4.ttl (s.now - s.lastSendTimestamp)
    ∃ a₁ a b₁ b, exec (.rx D) s = .next a₁ ∧ exec .tmo a₁ = .next a ∧
      exec .tmo s = .next b₁ ∧ exec (.rx D) b₁ = .next b ∧
      a.out = s.out ++ [reply] ∧ b.out = s.out ++ [.timeoutNote, reply] ∧
      b = { a with out := b.out }

/-- The cadence of the ideal schedule (R183): with no reply the next request goes out 3 s after the last one, after one notification; once a reply has cancelled the wait, 1 s after the timeout handling, with no notification. -/
def Obligations.IdealScheduleKeepsTheCadence : Prop :=
  ∀ s : State, Inv s → s.tmrArmed = true → s.tmrKind = .timeout → s.sentCount ≠ s.maxCount →
    (s.tmrForced = false → s.replyCount = 0#16 → s.now ≤ s.tmrDeadline →
      s.lastSendTimestamp.toNat + 6 * 1000000 < 2 ^ 64 →
      ∃ s₁ s₂ dst bytes, execLine .wait s = .next s₁ ∧ execLine .wait s₁ = .next s₂ ∧
        s₂.lastSendTimestamp.toNat = s.lastSendTimestamp.toNat + 3 * 1000000 ∧
        s₂.sentCount.toNat = s.sentCount.toNat + 1 ∧
        s₂.out = s.out ++ [.timeoutNote, .tx dst bytes]) ∧
    (s.tmrForced = true → s.now.toNat + 4 * 1000000 < 2 ^ 64 →
      ∃ s₁ s₂ dst bytes, execLine .wait s = .next s₁ ∧ execLine .wait s₁ = .next s₂ ∧
        s₂.lastSendTimestamp.toNat = s.now.toNat + 1000000 ∧
        s₂.sentCount.toNat = s.sentCount.toNat + 1 ∧
        s₂.out = s.out ++ [.tx dst bytes])

/-- The expansions of the script's pseudo-operations (R96).  That WAIT with no wait outstanding is refused whole, with no ADV before the refused TMR, is the model's choice, log 15. -/
def Obligations.PseudoOperationsExpand : Prop :=
  ∀ s : State,
    expandLine .tmr s =
      (if s.tmrArmed = true ∧ (s.tmrForced = true ∨ s.tmrDeadline ≤ s.now) then
        some [if s.tmrKind = .timeout then .tmo else .rsnd] else none) ∧
    (s.tmrArmed = true → s.tmrForced = true →
      expandLine .wait s = some [if s.tmrKind = .timeout then .tmo else .rsnd]) ∧
    (s.tmrArmed = true → s.tmrForced = false →
      expandLine .wait s = some
        [.adv (BitVec.ofNat 64 (s.tmrDeadline.toNat - s.now.toNat)),
          if s.tmrKind = .timeout then .tmo else .rsnd]) ∧
    (s.tmrArmed = false → expandLine .wait s = none) ∧
    (∀ t : Time, s.now ≤ t →
      expandLine (.atTime t) s = some [.adv (BitVec.ofNat 64 (t.toNat - s.now.toNat))]) ∧
    (∀ t : Time, t < s.now → expandLine (.atTime t) s = none) ∧
    (∀ id max size dst, expandLine (.ping id max size dst) s =
      some [.reset, .cfg id max size dst, .start])
end

