-- ==== Sys2Proof/Laws/Operands.lean ====
section
/-! SUPPORT. Byte order and field laws: taking a value apart into bytes and assembling it again loses nothing. -/

namespace Sys2Proof.Laws

open Sys2Proof Sys2Proof.Machine

theorem be16_toNat (a b : Byte) : (be16 a b).toNat = a.toNat * 256 + b.toNat := by
  unfold be16
  rw [BitVec.toNat_append, ← Nat.shiftLeft_add_eq_or_of_lt b.isLt, Nat.shiftLeft_eq]

theorem hi8_toNat (v : Half) : (hi8 v).toNat = v.toNat / 256 := by
  have := v.isLt
  simp [hi8, Nat.shiftRight_eq_div_pow]
  omega

theorem lo8_toNat (v : Half) : (lo8 v).toNat = v.toNat % 256 := by
  simp [lo8]

@[simp] theorem be16_hi_lo (v : Half) : be16 (hi8 v) (lo8 v) = v := by
  apply BitVec.eq_of_toNat_eq
  rw [be16_toNat, hi8_toNat, lo8_toNat]
  omega

@[simp] theorem hi8_be16 (a b : Byte) : hi8 (be16 a b) = a := by
  apply BitVec.eq_of_toNat_eq
  have := a.isLt; have := b.isLt
  simp [hi8, be16_toNat, Nat.shiftRight_eq_div_pow]
  omega

@[simp] theorem lo8_be16 (a b : Byte) : lo8 (be16 a b) = b := by
  apply BitVec.eq_of_toNat_eq
  have := b.isLt
  simp [lo8, be16_toNat]
  omega

theorem append16_toNat (a b : Half) : (a ++ b : Word).toNat = a.toNat * 65536 + b.toNat := by
  have := b.isLt
  rw [BitVec.toNat_append, ← Nat.shiftLeft_add_eq_or_of_lt this, Nat.shiftLeft_eq]

theorem be32_toNat (a b c d : Byte) :
    (be32 a b c d).toNat =
      a.toNat * 16777216 + b.toNat * 65536 + c.toNat * 256 + d.toNat := by
  rw [be32, append16_toNat, be16_toNat, be16_toNat]
  omega

@[simp] theorem append_hi16_lo16 (v : Word) : (hi16 v ++ lo16 v : Word) = v := by
  apply BitVec.eq_of_toNat_eq
  have := v.isLt
  rw [append16_toNat]
  simp [hi16, lo16, Nat.shiftRight_eq_div_pow]
  omega

@[simp] theorem hi16_append (a b : Half) : hi16 (a ++ b) = a := by
  apply BitVec.eq_of_toNat_eq
  have := a.isLt; have := b.isLt
  simp [hi16, append16_toNat, Nat.shiftRight_eq_div_pow]
  omega

@[simp] theorem lo16_append (a b : Half) : lo16 (a ++ b) = b := by
  apply BitVec.eq_of_toNat_eq
  have := b.isLt
  simp [lo16, append16_toNat]
  omega

@[simp] theorem be32_hi_lo (v : Word) :
    be32 (hi8 (hi16 v)) (lo8 (hi16 v)) (hi8 (lo16 v)) (lo8 (lo16 v)) = v := by
  simp [be32]

/-- The first byte of an IPv4 header gives back the version. -/
@[simp] theorem versionOf_append (v i : BitVec 4) : versionOf (v ++ i) = v := by
  revert v i; decide

/-- The first byte of an IPv4 header gives back the header length field. -/
@[simp] theorem ihlOf_append (v i : BitVec 4) : ihlOf (v ++ i) = i := by
  revert v i; decide

theorem version_ihl_append (b : Byte) : versionOf b ++ ihlOf b = b := by
  revert b; decide

@[simp] theorem reservedFlagOf_flagsByte (z d m : BitVec 1) (f : BitVec 13) :
    reservedFlagOf (flagsByte z d m f) = z := by
  unfold flagsByte
  generalize f.extractLsb' 8 5 = h
  revert z d m h; decide

@[simp] theorem dfOf_flagsByte (z d m : BitVec 1) (f : BitVec 13) :
    dfOf (flagsByte z d m f) = d := by
  unfold flagsByte
  generalize f.extractLsb' 8 5 = h
  revert z d m h; decide

@[simp] theorem mfOf_flagsByte (z d m : BitVec 1) (f : BitVec 13) :
    mfOf (flagsByte z d m f) = m := by
  unfold flagsByte
  generalize f.extractLsb' 8 5 = h
  revert z d m h; decide

theorem low5_flagsByte (z d m : BitVec 1) (f : BitVec 13) :
    (flagsByte z d m f).extractLsb' 0 5 = f.extractLsb' 8 5 := by
  unfold flagsByte
  generalize f.extractLsb' 8 5 = h
  revert z d m h; decide

@[simp] theorem fragmentOffsetOf_flagsByte (z d m : BitVec 1) (f : BitVec 13) :
    fragmentOffsetOf (flagsByte z d m f) (f.extractLsb' 0 8) = f := by
  unfold fragmentOffsetOf
  rw [low5_flagsByte]
  apply BitVec.eq_of_toNat_eq
  have := f.isLt
  rw [BitVec.toNat_append, ← Nat.shiftLeft_add_eq_or_of_lt (BitVec.isLt _), Nat.shiftLeft_eq]
  simp [Nat.shiftRight_eq_div_pow]
  omega

theorem length_icmpHeaderBytes (t c : Byte) (k i q : Half) :
    (icmpHeaderBytes t c k i q).length = 8 := rfl

theorem length_ip4HeaderBytes (h : Ip4Fields) : (ip4HeaderBytes h).length = 20 := rfl

theorem length_bytesOfNat (n w : Nat) : (bytesOfNat n w).length = n := by
  induction n with
  | zero => rfl
  | succ n ih => simp [bytesOfNat, ih]

/-- When the IPv4 format selects an instruction (R83 to R85): version 4, a legal `ihl`, and the option bytes it declares. -/
theorem decodeIp4Header_ok_iff
    {b0 b1 b2 b3 b4 b5 b6 b7 b8 b9 b10 b11 b12 b13 b14 b15 b16 b17 b18 b19 : Byte}
    {options : List Byte} {i : Instr} :
    decodeIp4Header b0 b1 b2 b3 b4 b5 b6 b7 b8 b9 b10 b11 b12 b13 b14 b15 b16 b17 b18 b19 options =
        .ok i ↔
      (versionOf b0 = Config.ipVersion ∧ 5 ≤ (ihlOf b0).toNat ∧
        20 + options.length = headerLength (ihlOf b0)) ∧
      i = .ipv4Header
        { ihl := ihlOf b0
          tos := b1
          totalLength := be16 b2 b3
          identification := be16 b4 b5
          z := reservedFlagOf b6
          df := dfOf b6
          mf := mfOf b6
          fragmentOffset := fragmentOffsetOf b6 b7
          ttl := b8
          protocol := b9
          headerChecksum := be16 b10 b11
          source := be32 b12 b13 b14 b15
          destination := be32 b16 b17 b18 b19 } options := by
  unfold decodeIp4Header
  by_cases hv : versionOf b0 = Config.ipVersion
  · by_cases hi : (ihlOf b0).toNat < 5
    · simp [hv, hi]
    · by_cases ho : 20 + options.length = headerLength (ihlOf b0)
      · simp [hv, hi, ho, eq_comm]
        omega
      · simp [hv, hi, ho]
  · simp [hv]

/-- The number of 16-bit words of a byte sequence, an odd byte counting as one (R110). -/
theorem length_words (p : List Byte) : (words p).length = (p.length + 1) / 2 := by
  induction p using words.induct with
  | case1 => rfl
  | case2 b => simp [words]
  | case3 b0 b1 rest ih => simp only [words, List.length_cons, ih]; omega

end Sys2Proof.Laws
end

