-- ==== Sys2Proof/Laws/Codec.lean ====
section
/-! SUPPORT. What the pure codec operations compute, in natural numbers, once for each. -/

namespace Sys2Proof.Laws

open Sys2Proof Sys2Proof.Machine

theorem fold_toNat (acc : Word) :
    (fold acc).toNat = acc.toNat / 65536 + acc.toNat % 65536 := by
  have := acc.isLt
  have hm : acc.toNat &&& (0xFFFF#32).toNat = acc.toNat % 65536 :=
    Nat.and_two_pow_sub_one_eq_mod acc.toNat 16
  unfold fold
  rw [BitVec.toNat_add, BitVec.toNat_ushiftRight, BitVec.toNat_and, hm,
    Nat.shiftRight_eq_div_pow]
  omega

/-- The accumulator adds like natural numbers while the sum stays below 2^32. -/
theorem accumulate_toNat (ws : List Half) (acc : Word)
    (h : acc.toNat + (ws.map BitVec.toNat).sum < 2 ^ 32) :
    (accumulate acc ws).toNat = acc.toNat + (ws.map BitVec.toNat).sum := by
  induction ws generalizing acc with
  | nil => simp [accumulate]
  | cons w ws ih =>
    simp only [List.map_cons, List.sum_cons] at h ⊢
    have hadd : (acc + w.setWidth 32).toNat = acc.toNat + w.toNat := by
      have := w.isLt
      rw [BitVec.toNat_add, BitVec.toNat_setWidth]
      omega
    rw [accumulate, ih _ (by rw [hadd]; omega), hadd]
    omega

theorem headerSum_toNat (t c : Byte) (i q : Half) :
    (headerSum t c i q).toNat = t.toNat * 256 + c.toNat + i.toNat + q.toNat := by
  have := t.isLt
  have := c.isLt
  have := i.isLt
  have := q.isLt
  simp [headerSum, BitVec.toNat_add, BitVec.toNat_mul, BitVec.toNat_setWidth]
  omega

theorem icmpdec_of_length_ne {b : List Byte} (h : b.length ≠ 8) :
    icmpdec b = .fail .icmpShort := by
  unfold icmpdec
  split
  · simp at h
  · rfl

/-- A byte sequence of 20 or more bytes, taken apart. -/
theorem exists_of_twenty_le {b : List Byte} (h : 20 ≤ b.length) :
    ∃ b0 b1 b2 b3 b4 b5 b6 b7 b8 b9 b10 b11 b12 b13 b14 b15 b16 b17 b18 b19 rest,
      b = b0 :: b1 :: b2 :: b3 :: b4 :: b5 :: b6 :: b7 :: b8 :: b9 :: b10 :: b11 :: b12 :: b13 ::
        b14 :: b15 :: b16 :: b17 :: b18 :: b19 :: rest := by
  have hcons : ∀ {n : Nat} {l : List Byte}, n + 1 ≤ l.length →
      ∃ x r, l = x :: r ∧ n ≤ r.length := by
    intro n l hl
    cases l with
    | nil => simp at hl
    | cons x r => exact ⟨x, r, rfl, by simpa using hl⟩
  obtain ⟨b0, r, rfl, h0⟩ := hcons h
  obtain ⟨b1, r, rfl, h1⟩ := hcons h0
  obtain ⟨b2, r, rfl, h2⟩ := hcons h1
  obtain ⟨b3, r, rfl, h3⟩ := hcons h2
  obtain ⟨b4, r, rfl, h4⟩ := hcons h3
  obtain ⟨b5, r, rfl, h5⟩ := hcons h4
  obtain ⟨b6, r, rfl, h6⟩ := hcons h5
  obtain ⟨b7, r, rfl, h7⟩ := hcons h6
  obtain ⟨b8, r, rfl, h8⟩ := hcons h7
  obtain ⟨b9, r, rfl, h9⟩ := hcons h8
  obtain ⟨b10, r, rfl, h10⟩ := hcons h9
  obtain ⟨b11, r, rfl, h11⟩ := hcons h10
  obtain ⟨b12, r, rfl, h12⟩ := hcons h11
  obtain ⟨b13, r, rfl, h13⟩ := hcons h12
  obtain ⟨b14, r, rfl, h14⟩ := hcons h13
  obtain ⟨b15, r, rfl, h15⟩ := hcons h14
  obtain ⟨b16, r, rfl, h16⟩ := hcons h15
  obtain ⟨b17, r, rfl, h17⟩ := hcons h16
  obtain ⟨b18, r, rfl, h18⟩ := hcons h17
  obtain ⟨b19, r, rfl, -⟩ := hcons h18
  exact ⟨b0, b1, b2, b3, b4, b5, b6, b7, b8, b9, b10, b11, b12, b13, b14, b15, b16, b17, b18, b19,
    r, rfl⟩

theorem ip4dec_of_length_lt {b : List Byte} (h : b.length < 20) :
    ip4dec b = .fail .ip4Short := by
  unfold ip4dec
  split
  · simp at h
    omega
  · rfl

/-- IP4DEC on 20 or more bytes: its tests in order, without the one that cannot fail (R157). -/
theorem ip4dec_of_bytes
    (b0 b1 b2 b3 b4 b5 b6 b7 b8 b9 b10 b11 b12 b13 b14 b15 b16 b17 b18 b19 : Byte)
    (rest : List Byte) :
    ip4dec (b0 :: b1 :: b2 :: b3 :: b4 :: b5 :: b6 :: b7 :: b8 :: b9 :: b10 :: b11 :: b12 :: b13 ::
        b14 :: b15 :: b16 :: b17 :: b18 :: b19 :: rest) =
      if versionOf b0 ≠ Config.ipVersion then .fail .ip4Version
      else if (ihlOf b0).toNat < 5 then .fail .ip4Ihl
      else if 20 + rest.length < headerLength (ihlOf b0) then .fail .ip4Trunc
      else .ok
        { version := versionOf b0
          ihl := ihlOf b0
          tos := b1
          totalLength := be16 b2 b3
          identification := be16 b4 b5
          df := dfOf b6
          mf := mfOf b6
          fragmentOffset := fragmentOffsetOf b6 b7
          ttl := b8
          protocol := b9
          headerChecksum := be16 b10 b11
          source := be32 b12 b13 b14 b15
          destination := be32 b16 b17 b18 b19
          options := rest.take (headerLength (ihlOf b0) - 20)
          headerLengthBytes := BitVec.ofNat 6 (headerLength (ihlOf b0)) } := by
  have hi := (ihlOf b0).isLt
  have ht : ((headerLength (ihlOf b0) : Int) - 20).toNat = headerLength (ihlOf b0) - 20 := by
    omega
  simp only [ip4dec, ht, List.length_cons]
  by_cases hv : versionOf b0 ≠ Config.ipVersion
  · rw [if_pos hv, if_pos hv]
  · rw [if_neg hv, if_neg hv]
    by_cases h5 : (ihlOf b0).toNat < 5
    · rw [if_pos h5, if_pos (by simp only [headerLength]; omega)]
    · rw [if_neg h5, if_neg (by simp only [headerLength]; omega)]
      have hl : rest.length + 1 + 1 + 1 + 1 + 1 + 1 + 1 + 1 + 1 + 1 + 1 + 1 + 1 + 1 + 1 + 1 + 1 + 1
          + 1 + 1 = 20 + rest.length := by omega
      rw [hl]

end Sys2Proof.Laws
end

