-- ==== Sys2Proof/Laws/Flags.lean ====
section
/-! SUPPORT. What each enabling predicate says (R190), once, so that no proof unfolds one. -/

namespace Sys2Proof.Laws

open Sys2Proof Sys2Proof.Machine

theorem lengthAtMost_iff {n : Nat} {b : List Byte} : lengthAtMost n b = true ↔ b.length ≤ n := by
  simp [lengthAtMost]

theorem messageLength_iff {m : List Byte} :
    messageLength m = true ↔ 8 ≤ m.length ∧ m.length ≤ Config.messageMax := by
  simp [messageLength, lengthAtMost]

theorem timePremise_iff {t : Nat} : timePremise t = true ↔ t + 3 * 1000000 < 2 ^ 64 := by
  rw [timePremise, decide_eq_true_eq]
  simp only [Config.tickHz]
  omega

theorem cfgEnabled_iff {s : State} : cfgEnabled s = true ↔ s.fsm = .idle := by
  simp [cfgEnabled]

theorem startEnabled_iff {s : State} :
    startEnabled s = true ↔ s.fsm = .idle ∧ s.cfgValid = true := by
  simp [startEnabled]

theorem waitCompleted_iff {s : State} :
    waitCompleted s = true ↔
      s.tmrArmed = true ∧ (s.tmrForced = true ∨ s.tmrDeadline ≤ s.now) := by
  simp only [waitCompleted, Bool.and_eq_true, Bool.or_eq_true, decide_eq_true_eq]

theorem tmoEnabled_iff {s : State} :
    tmoEnabled s = true ↔
      s.tmrArmed = true ∧ s.tmrKind = .timeout ∧
        (s.tmrForced = true ∨ s.tmrDeadline ≤ s.now) := by
  simp only [tmoEnabled, Bool.and_eq_true, decide_eq_true_eq, waitCompleted_iff]
  exact and_left_comm

theorem rsndEnabled_iff {s : State} :
    rsndEnabled s = true ↔
      s.tmrArmed = true ∧ s.tmrKind = .resend ∧ s.tmrDeadline ≤ s.now := by
  simp only [rsndEnabled, Bool.and_eq_true, decide_eq_true_eq, and_assoc]

theorem advEnabled_iff {d : Time} {s : State} :
    advEnabled d s = true ↔ s.now.toNat + d.toNat + 3 * 1000000 < 2 ^ 64 := timePremise_iff

end Sys2Proof.Laws
end

