-- ==== Sys2Proof/Laws/Memory.lean ====
section
/-! SUPPORT. The laws of the two buffers: what a read gives after a write or a load, and that every operation keeps the canonical form. -/

namespace Sys2Proof.Laws

open Sys2Proof Sys2Proof.Machine

/-- Every listed offset is at least `a`. -/
def allFrom (a : Nat) (m : Memory) : Prop := ∀ c ∈ m, a ≤ c.1

theorem wf_tail {c : Host.Cell} {m : Memory} (h : Memory.wf (c :: m) = true) :
    Memory.wf m = true := by
  cases m with
  | nil => rfl
  | cons d m => simp [Memory.wf] at h; exact h.2

theorem wf_cons_iff (c : Host.Cell) (m : Memory) :
    Memory.wf (c :: m) = true ↔ allFrom (c.1 + 1) m ∧ Memory.wf m = true := by
  induction m generalizing c with
  | nil => simp [Memory.wf, allFrom]
  | cons d m ih =>
    have hd := ih d
    constructor
    · intro h
      simp only [Memory.wf, Bool.and_eq_true, decide_eq_true_eq] at h
      refine ⟨?_, h.2⟩
      intro e he
      rcases List.mem_cons.mp he with rfl | he
      · exact h.1
      · have := (hd.mp h.2).1 e he; omega
    · rintro ⟨h, hw⟩
      have := h d (by simp)
      simp only [Memory.wf, Bool.and_eq_true, decide_eq_true_eq]
      exact ⟨by omega, hw⟩

theorem readByte_none_of_allFrom {m : Memory} {a k : Nat} (h : allFrom k m) (ha : a < k) :
    readByte m a = none := by
  induction m with
  | nil => rfl
  | cons c m ih =>
    have hc := h c (by simp)
    have : c.1 ≠ a := by omega
    simp only [readByte, this, if_false]
    exact ih fun d hd => h d (by simp [hd])

/-- A byte reads back where it was written. -/
@[simp] theorem readByte_memWrite1_self (m : Memory) (a : Nat) (v : Byte) :
    readByte (memWrite1 a v m) a = some v := by
  induction m with
  | nil => simp [memWrite1, readByte]
  | cons c m ih =>
    unfold memWrite1
    split
    · simp [readByte]
    · split
      · simp [readByte]
      · rename_i h1 h2
        have : c.1 ≠ a := fun h => h2 h.symm
        simp [readByte, this, ih]

/-- A write leaves every other offset alone. -/
theorem readByte_memWrite1_other (m : Memory) {a x : Nat} (v : Byte) (h : x ≠ a) :
    readByte (memWrite1 a v m) x = readByte m x := by
  induction m with
  | nil => simp [memWrite1, readByte, Ne.symm h]
  | cons c m ih =>
    unfold memWrite1
    split
    · simp [readByte, Ne.symm h]
    · split
      · rename_i h2
        simp [readByte, Ne.symm h, ← h2]
      · simp [readByte, ih]

theorem allFrom_memWrite1 {m : Memory} {k a : Nat} (v : Byte) (h : allFrom k m) (ha : k ≤ a) :
    allFrom k (memWrite1 a v m) := by
  induction m with
  | nil => simpa [memWrite1, allFrom] using ha
  | cons c m ih =>
    have hc := h c (by simp)
    have hm : allFrom k m := fun d hd => h d (by simp [hd])
    intro d hd
    unfold memWrite1 at hd
    split at hd
    · rcases List.mem_cons.mp hd with rfl | hd
      · exact ha
      · exact h d hd
    · split at hd
      · rcases List.mem_cons.mp hd with rfl | hd
        · exact ha
        · exact hm d hd
      · rcases List.mem_cons.mp hd with rfl | hd
        · exact hc
        · exact ih hm d hd

/-- A one-byte write keeps the canonical form. -/
theorem wf_memWrite1 {m : Memory} (a : Nat) (v : Byte) (h : Memory.wf m = true) :
    Memory.wf (memWrite1 a v m) = true := by
  induction m with
  | nil => rfl
  | cons c m ih =>
    obtain ⟨hc, hm⟩ := (wf_cons_iff c m).mp h
    unfold memWrite1
    split
    · rename_i hlt
      refine (wf_cons_iff _ _).mpr ⟨?_, h⟩
      intro d hd
      rcases List.mem_cons.mp hd with rfl | hd
      · exact hlt
      · have := hc d hd; simp only at hlt ⊢; omega
    · split
      · rename_i heq
        exact (wf_cons_iff _ _).mpr ⟨by simpa [heq] using hc, hm⟩
      · refine (wf_cons_iff _ _).mpr ⟨allFrom_memWrite1 v hc ?_, ih hm⟩
        simp only
        omega

/-- A two-byte write keeps the canonical form. -/
theorem wf_memWrite2 {m : Memory} (a : Nat) (v : Half) (h : Memory.wf m = true) :
    Memory.wf (memWrite2 a v m) = true :=
  wf_memWrite1 _ _ (wf_memWrite1 _ _ h)

/-- Writing a byte sequence keeps the canonical form. -/
theorem wf_writeBytes (bytes : List Byte) {a : Nat} {m : Memory} (h : Memory.wf m = true) :
    Memory.wf (writeBytes a bytes m) = true := by
  induction bytes generalizing a m with
  | nil => exact h
  | cons b bytes ih => exact ih (wf_memWrite1 a b h)

theorem allFrom_loadBytes (bytes : List Byte) (a : Nat) : allFrom a (loadBytes a bytes) := by
  induction bytes generalizing a with
  | nil => intro c hc; cases hc
  | cons b bytes ih =>
    intro c hc
    rcases List.mem_cons.mp hc with rfl | hc
    · exact Nat.le_refl _
    · have := ih (a + 1) c hc; omega

/-- A loaded buffer is in canonical form. -/
theorem wf_loadBytes (bytes : List Byte) (a : Nat) : Memory.wf (loadBytes a bytes) = true := by
  induction bytes generalizing a with
  | nil => rfl
  | cons b bytes ih => exact (wf_cons_iff _ _).mpr ⟨allFrom_loadBytes bytes (a + 1), ih (a + 1)⟩

/-- A loaded buffer reads back whole. -/
@[simp] theorem readRange_loadBytes (bytes : List Byte) (a : Nat) :
    readRange (loadBytes a bytes) a bytes.length = some bytes := by
  induction bytes generalizing a with
  | nil => simp [readRange]
  | cons b bytes ih => simp [loadBytes, readRange, ih]

theorem memWrite1_of_allFrom {m : Memory} {a : Nat} (v : Byte) (h : allFrom (a + 1) m) :
    memWrite1 a v m = (a, v) :: m := by
  cases m with
  | nil => rfl
  | cons c m =>
    have := h c (by simp)
    have : a < c.1 := this
    simp [memWrite1, this]

theorem writeBytes_cons_below {m : Memory} {a k : Nat} (bytes : List Byte) (v : Byte)
    (h : k < a) : writeBytes a bytes ((k, v) :: m) = (k, v) :: writeBytes a bytes m := by
  induction bytes generalizing a m with
  | nil => rfl
  | cons b bytes ih =>
    have h1 : ¬ a < k := by omega
    have h2 : ¬ a = k := by omega
    simp only [writeBytes, memWrite1, h1, h2, if_false]
    exact ih (by omega)

/-- A header written in front of a loaded payload is the two loaded together. -/
theorem writeBytes_loadBytes (header payload : List Byte) (a : Nat) :
    writeBytes a header (loadBytes (a + header.length) payload) =
      loadBytes a (header ++ payload) := by
  induction header generalizing a with
  | nil => simp [writeBytes]
  | cons b header ih =>
    have hfrom : allFrom (a + 1) (loadBytes (a + (b :: header).length) payload) := fun c hc => by
      have := allFrom_loadBytes payload _ c hc
      simp at this
      omega
    rw [writeBytes, memWrite1_of_allFrom b hfrom, writeBytes_cons_below header b (by omega)]
    have hlen : a + (b :: header).length = a + 1 + header.length := by simp; omega
    rw [hlen, ih (a + 1)]
    rfl

/-- A byte of a loaded buffer. -/
theorem readByte_loadBytes (bytes : List Byte) (a i : Nat) :
    readByte (loadBytes a bytes) (a + i) = bytes[i]? := by
  induction bytes generalizing a i with
  | nil => rfl
  | cons b bytes ih =>
    cases i with
    | zero => simp [loadBytes, readByte]
    | succ i =>
      have : a ≠ a + (i + 1) := by omega
      simp only [loadBytes, readByte, this, if_false, List.getElem?_cons_succ]
      rw [← ih (a + 1) i]
      congr 1
      omega

end Sys2Proof.Laws
end

