-- ==== Sys2Proof/Laws/State.lean ====
section
/-! SUPPORT. One lemma per field per update of State, so that no proof unfolds a record update. -/

namespace Sys2Proof.Laws

open Sys2Proof Sys2Proof.Machine

@[simp] theorem emit_identifier (r : Record) (s : State) :
    (emit r s).identifier = s.identifier := rfl
@[simp] theorem emit_maxCount (r : Record) (s : State) :
    (emit r s).maxCount = s.maxCount := rfl
@[simp] theorem emit_payloadSize (r : Record) (s : State) :
    (emit r s).payloadSize = s.payloadSize := rfl
@[simp] theorem emit_targetEndpoint (r : Record) (s : State) :
    (emit r s).targetEndpoint = s.targetEndpoint := rfl
@[simp] theorem emit_cfgValid (r : Record) (s : State) :
    (emit r s).cfgValid = s.cfgValid := rfl
@[simp] theorem emit_fsm (r : Record) (s : State) :
    (emit r s).fsm = s.fsm := rfl
@[simp] theorem emit_sentCount (r : Record) (s : State) :
    (emit r s).sentCount = s.sentCount := rfl
@[simp] theorem emit_replyCount (r : Record) (s : State) :
    (emit r s).replyCount = s.replyCount := rfl
@[simp] theorem emit_lastSendTimestamp (r : Record) (s : State) :
    (emit r s).lastSendTimestamp = s.lastSendTimestamp := rfl
@[simp] theorem emit_rxArmed (r : Record) (s : State) :
    (emit r s).rxArmed = s.rxArmed := rfl
@[simp] theorem emit_tmrArmed (r : Record) (s : State) :
    (emit r s).tmrArmed = s.tmrArmed := rfl
@[simp] theorem emit_tmrKind (r : Record) (s : State) :
    (emit r s).tmrKind = s.tmrKind := rfl
@[simp] theorem emit_tmrDeadline (r : Record) (s : State) :
    (emit r s).tmrDeadline = s.tmrDeadline := rfl
@[simp] theorem emit_tmrForced (r : Record) (s : State) :
    (emit r s).tmrForced = s.tmrForced := rfl
@[simp] theorem emit_now (r : Record) (s : State) :
    (emit r s).now = s.now := rfl
@[simp] theorem emit_rxbuf (r : Record) (s : State) :
    (emit r s).rxbuf = s.rxbuf := rfl
@[simp] theorem emit_rxLen (r : Record) (s : State) :
    (emit r s).rxLen = s.rxLen := rfl
@[simp] theorem emit_txbuf (r : Record) (s : State) :
    (emit r s).txbuf = s.txbuf := rfl
@[simp] theorem emit_out (r : Record) (s : State) :
    (emit r s).out = s.out ++ [r] := rfl
@[simp] theorem emit_result (r : Record) (s : State) :
    (emit r s).result = s.result := rfl
@[simp] theorem emit_issues (r : Record) (s : State) :
    (emit r s).issues = s.issues := rfl
@[simp] theorem emit_freeIndex (r : Record) (s : State) :
    (emit r s).freeIndex = s.freeIndex := rfl

@[simp] theorem setResult_identifier (r : Result) (s : State) :
    (setResult r s).identifier = s.identifier := rfl
@[simp] theorem setResult_maxCount (r : Result) (s : State) :
    (setResult r s).maxCount = s.maxCount := rfl
@[simp] theorem setResult_payloadSize (r : Result) (s : State) :
    (setResult r s).payloadSize = s.payloadSize := rfl
@[simp] theorem setResult_targetEndpoint (r : Result) (s : State) :
    (setResult r s).targetEndpoint = s.targetEndpoint := rfl
@[simp] theorem setResult_cfgValid (r : Result) (s : State) :
    (setResult r s).cfgValid = s.cfgValid := rfl
@[simp] theorem setResult_fsm (r : Result) (s : State) :
    (setResult r s).fsm = s.fsm := rfl
@[simp] theorem setResult_sentCount (r : Result) (s : State) :
    (setResult r s).sentCount = s.sentCount := rfl
@[simp] theorem setResult_replyCount (r : Result) (s : State) :
    (setResult r s).replyCount = s.replyCount := rfl
@[simp] theorem setResult_lastSendTimestamp (r : Result) (s : State) :
    (setResult r s).lastSendTimestamp = s.lastSendTimestamp := rfl
@[simp] theorem setResult_rxArmed (r : Result) (s : State) :
    (setResult r s).rxArmed = s.rxArmed := rfl
@[simp] theorem setResult_tmrArmed (r : Result) (s : State) :
    (setResult r s).tmrArmed = s.tmrArmed := rfl
@[simp] theorem setResult_tmrKind (r : Result) (s : State) :
    (setResult r s).tmrKind = s.tmrKind := rfl
@[simp] theorem setResult_tmrDeadline (r : Result) (s : State) :
    (setResult r s).tmrDeadline = s.tmrDeadline := rfl
@[simp] theorem setResult_tmrForced (r : Result) (s : State) :
    (setResult r s).tmrForced = s.tmrForced := rfl
@[simp] theorem setResult_now (r : Result) (s : State) :
    (setResult r s).now = s.now := rfl
@[simp] theorem setResult_rxbuf (r : Result) (s : State) :
    (setResult r s).rxbuf = s.rxbuf := rfl
@[simp] theorem setResult_rxLen (r : Result) (s : State) :
    (setResult r s).rxLen = s.rxLen := rfl
@[simp] theorem setResult_txbuf (r : Result) (s : State) :
    (setResult r s).txbuf = s.txbuf := rfl
@[simp] theorem setResult_out (r : Result) (s : State) :
    (setResult r s).out = s.out := rfl
@[simp] theorem setResult_result (r : Result) (s : State) :
    (setResult r s).result = some r := rfl
@[simp] theorem setResult_issues (r : Result) (s : State) :
    (setResult r s).issues = s.issues := rfl
@[simp] theorem setResult_freeIndex (r : Result) (s : State) :
    (setResult r s).freeIndex = s.freeIndex := rfl

@[simp] theorem clearResult_identifier (s : State) :
    (clearResult s).identifier = s.identifier := rfl
@[simp] theorem clearResult_maxCount (s : State) :
    (clearResult s).maxCount = s.maxCount := rfl
@[simp] theorem clearResult_payloadSize (s : State) :
    (clearResult s).payloadSize = s.payloadSize := rfl
@[simp] theorem clearResult_targetEndpoint (s : State) :
    (clearResult s).targetEndpoint = s.targetEndpoint := rfl
@[simp] theorem clearResult_cfgValid (s : State) :
    (clearResult s).cfgValid = s.cfgValid := rfl
@[simp] theorem clearResult_fsm (s : State) :
    (clearResult s).fsm = s.fsm := rfl
@[simp] theorem clearResult_sentCount (s : State) :
    (clearResult s).sentCount = s.sentCount := rfl
@[simp] theorem clearResult_replyCount (s : State) :
    (clearResult s).replyCount = s.replyCount := rfl
@[simp] theorem clearResult_lastSendTimestamp (s : State) :
    (clearResult s).lastSendTimestamp = s.lastSendTimestamp := rfl
@[simp] theorem clearResult_rxArmed (s : State) :
    (clearResult s).rxArmed = s.rxArmed := rfl
@[simp] theorem clearResult_tmrArmed (s : State) :
    (clearResult s).tmrArmed = s.tmrArmed := rfl
@[simp] theorem clearResult_tmrKind (s : State) :
    (clearResult s).tmrKind = s.tmrKind := rfl
@[simp] theorem clearResult_tmrDeadline (s : State) :
    (clearResult s).tmrDeadline = s.tmrDeadline := rfl
@[simp] theorem clearResult_tmrForced (s : State) :
    (clearResult s).tmrForced = s.tmrForced := rfl
@[simp] theorem clearResult_now (s : State) :
    (clearResult s).now = s.now := rfl
@[simp] theorem clearResult_rxbuf (s : State) :
    (clearResult s).rxbuf = s.rxbuf := rfl
@[simp] theorem clearResult_rxLen (s : State) :
    (clearResult s).rxLen = s.rxLen := rfl
@[simp] theorem clearResult_txbuf (s : State) :
    (clearResult s).txbuf = s.txbuf := rfl
@[simp] theorem clearResult_out (s : State) :
    (clearResult s).out = s.out := rfl
@[simp] theorem clearResult_result (s : State) :
    (clearResult s).result = none := rfl
@[simp] theorem clearResult_issues (s : State) :
    (clearResult s).issues = s.issues := rfl
@[simp] theorem clearResult_freeIndex (s : State) :
    (clearResult s).freeIndex = s.freeIndex := rfl

@[simp] theorem arm_identifier (k : TmrKind) (d : Time) (s : State) :
    (arm k d s).identifier = s.identifier := rfl
@[simp] theorem arm_maxCount (k : TmrKind) (d : Time) (s : State) :
    (arm k d s).maxCount = s.maxCount := rfl
@[simp] theorem arm_payloadSize (k : TmrKind) (d : Time) (s : State) :
    (arm k d s).payloadSize = s.payloadSize := rfl
@[simp] theorem arm_targetEndpoint (k : TmrKind) (d : Time) (s : State) :
    (arm k d s).targetEndpoint = s.targetEndpoint := rfl
@[simp] theorem arm_cfgValid (k : TmrKind) (d : Time) (s : State) :
    (arm k d s).cfgValid = s.cfgValid := rfl
@[simp] theorem arm_fsm (k : TmrKind) (d : Time) (s : State) :
    (arm k d s).fsm = s.fsm := rfl
@[simp] theorem arm_sentCount (k : TmrKind) (d : Time) (s : State) :
    (arm k d s).sentCount = s.sentCount := rfl
@[simp] theorem arm_replyCount (k : TmrKind) (d : Time) (s : State) :
    (arm k d s).replyCount = s.replyCount := rfl
@[simp] theorem arm_lastSendTimestamp (k : TmrKind) (d : Time) (s : State) :
    (arm k d s).lastSendTimestamp = s.lastSendTimestamp := rfl
@[simp] theorem arm_rxArmed (k : TmrKind) (d : Time) (s : State) :
    (arm k d s).rxArmed = s.rxArmed := rfl
@[simp] theorem arm_tmrArmed (k : TmrKind) (d : Time) (s : State) :
    (arm k d s).tmrArmed = true := rfl
@[simp] theorem arm_tmrKind (k : TmrKind) (d : Time) (s : State) :
    (arm k d s).tmrKind = k := rfl
@[simp] theorem arm_tmrDeadline (k : TmrKind) (d : Time) (s : State) :
    (arm k d s).tmrDeadline = d := rfl
@[simp] theorem arm_tmrForced (k : TmrKind) (d : Time) (s : State) :
    (arm k d s).tmrForced = false := rfl
@[simp] theorem arm_now (k : TmrKind) (d : Time) (s : State) :
    (arm k d s).now = s.now := rfl
@[simp] theorem arm_rxbuf (k : TmrKind) (d : Time) (s : State) :
    (arm k d s).rxbuf = s.rxbuf := rfl
@[simp] theorem arm_rxLen (k : TmrKind) (d : Time) (s : State) :
    (arm k d s).rxLen = s.rxLen := rfl
@[simp] theorem arm_txbuf (k : TmrKind) (d : Time) (s : State) :
    (arm k d s).txbuf = s.txbuf := rfl
@[simp] theorem arm_out (k : TmrKind) (d : Time) (s : State) :
    (arm k d s).out = s.out := rfl
@[simp] theorem arm_result (k : TmrKind) (d : Time) (s : State) :
    (arm k d s).result = s.result := rfl
@[simp] theorem arm_issues (k : TmrKind) (d : Time) (s : State) :
    (arm k d s).issues = s.issues := rfl
@[simp] theorem arm_freeIndex (k : TmrKind) (d : Time) (s : State) :
    (arm k d s).freeIndex = s.freeIndex := rfl

@[simp] theorem consumeWait_identifier (s : State) :
    (consumeWait s).identifier = s.identifier := rfl
@[simp] theorem consumeWait_maxCount (s : State) :
    (consumeWait s).maxCount = s.maxCount := rfl
@[simp] theorem consumeWait_payloadSize (s : State) :
    (consumeWait s).payloadSize = s.payloadSize := rfl
@[simp] theorem consumeWait_targetEndpoint (s : State) :
    (consumeWait s).targetEndpoint = s.targetEndpoint := rfl
@[simp] theorem consumeWait_cfgValid (s : State) :
    (consumeWait s).cfgValid = s.cfgValid := rfl
@[simp] theorem consumeWait_fsm (s : State) :
    (consumeWait s).fsm = s.fsm := rfl
@[simp] theorem consumeWait_sentCount (s : State) :
    (consumeWait s).sentCount = s.sentCount := rfl
@[simp] theorem consumeWait_replyCount (s : State) :
    (consumeWait s).replyCount = s.replyCount := rfl
@[simp] theorem consumeWait_lastSendTimestamp (s : State) :
    (consumeWait s).lastSendTimestamp = s.lastSendTimestamp := rfl
@[simp] theorem consumeWait_rxArmed (s : State) :
    (consumeWait s).rxArmed = s.rxArmed := rfl
@[simp] theorem consumeWait_tmrArmed (s : State) :
    (consumeWait s).tmrArmed = false := rfl
@[simp] theorem consumeWait_tmrKind (s : State) :
    (consumeWait s).tmrKind = s.tmrKind := rfl
@[simp] theorem consumeWait_tmrDeadline (s : State) :
    (consumeWait s).tmrDeadline = s.tmrDeadline := rfl
@[simp] theorem consumeWait_tmrForced (s : State) :
    (consumeWait s).tmrForced = false := rfl
@[simp] theorem consumeWait_now (s : State) :
    (consumeWait s).now = s.now := rfl
@[simp] theorem consumeWait_rxbuf (s : State) :
    (consumeWait s).rxbuf = s.rxbuf := rfl
@[simp] theorem consumeWait_rxLen (s : State) :
    (consumeWait s).rxLen = s.rxLen := rfl
@[simp] theorem consumeWait_txbuf (s : State) :
    (consumeWait s).txbuf = s.txbuf := rfl
@[simp] theorem consumeWait_out (s : State) :
    (consumeWait s).out = s.out := rfl
@[simp] theorem consumeWait_result (s : State) :
    (consumeWait s).result = s.result := rfl
@[simp] theorem consumeWait_issues (s : State) :
    (consumeWait s).issues = s.issues := rfl
@[simp] theorem consumeWait_freeIndex (s : State) :
    (consumeWait s).freeIndex = s.freeIndex := rfl

@[simp] theorem deliver_identifier (d : List Byte) (s : State) :
    (deliver d s).identifier = s.identifier := rfl
@[simp] theorem deliver_maxCount (d : List Byte) (s : State) :
    (deliver d s).maxCount = s.maxCount := rfl
@[simp] theorem deliver_payloadSize (d : List Byte) (s : State) :
    (deliver d s).payloadSize = s.payloadSize := rfl
@[simp] theorem deliver_targetEndpoint (d : List Byte) (s : State) :
    (deliver d s).targetEndpoint = s.targetEndpoint := rfl
@[simp] theorem deliver_cfgValid (d : List Byte) (s : State) :
    (deliver d s).cfgValid = s.cfgValid := rfl
@[simp] theorem deliver_fsm (d : List Byte) (s : State) :
    (deliver d s).fsm = s.fsm := rfl
@[simp] theorem deliver_sentCount (d : List Byte) (s : State) :
    (deliver d s).sentCount = s.sentCount := rfl
@[simp] theorem deliver_replyCount (d : List Byte) (s : State) :
    (deliver d s).replyCount = s.replyCount := rfl
@[simp] theorem deliver_lastSendTimestamp (d : List Byte) (s : State) :
    (deliver d s).lastSendTimestamp = s.lastSendTimestamp := rfl
@[simp] theorem deliver_rxArmed (d : List Byte) (s : State) :
    (deliver d s).rxArmed = s.rxArmed := rfl
@[simp] theorem deliver_tmrArmed (d : List Byte) (s : State) :
    (deliver d s).tmrArmed = s.tmrArmed := rfl
@[simp] theorem deliver_tmrKind (d : List Byte) (s : State) :
    (deliver d s).tmrKind = s.tmrKind := rfl
@[simp] theorem deliver_tmrDeadline (d : List Byte) (s : State) :
    (deliver d s).tmrDeadline = s.tmrDeadline := rfl
@[simp] theorem deliver_tmrForced (d : List Byte) (s : State) :
    (deliver d s).tmrForced = s.tmrForced := rfl
@[simp] theorem deliver_now (d : List Byte) (s : State) :
    (deliver d s).now = s.now := rfl
@[simp] theorem deliver_rxbuf (d : List Byte) (s : State) :
    (deliver d s).rxbuf = loadBytes 0 d := rfl
@[simp] theorem deliver_rxLen (d : List Byte) (s : State) :
    (deliver d s).rxLen = BitVec.ofNat 16 d.length := rfl
@[simp] theorem deliver_txbuf (d : List Byte) (s : State) :
    (deliver d s).txbuf = s.txbuf := rfl
@[simp] theorem deliver_out (d : List Byte) (s : State) :
    (deliver d s).out = s.out := rfl
@[simp] theorem deliver_result (d : List Byte) (s : State) :
    (deliver d s).result = s.result := rfl
@[simp] theorem deliver_issues (d : List Byte) (s : State) :
    (deliver d s).issues = s.issues := rfl
@[simp] theorem deliver_freeIndex (d : List Byte) (s : State) :
    (deliver d s).freeIndex = s.freeIndex := rfl

@[simp] theorem finishRx_identifier (b : Bool) (s : State) :
    (finishRx b s).identifier = s.identifier := rfl
@[simp] theorem finishRx_maxCount (b : Bool) (s : State) :
    (finishRx b s).maxCount = s.maxCount := rfl
@[simp] theorem finishRx_payloadSize (b : Bool) (s : State) :
    (finishRx b s).payloadSize = s.payloadSize := rfl
@[simp] theorem finishRx_targetEndpoint (b : Bool) (s : State) :
    (finishRx b s).targetEndpoint = s.targetEndpoint := rfl
@[simp] theorem finishRx_cfgValid (b : Bool) (s : State) :
    (finishRx b s).cfgValid = s.cfgValid := rfl
@[simp] theorem finishRx_fsm (b : Bool) (s : State) :
    (finishRx b s).fsm = s.fsm := rfl
@[simp] theorem finishRx_sentCount (b : Bool) (s : State) :
    (finishRx b s).sentCount = s.sentCount := rfl
@[simp] theorem finishRx_replyCount (b : Bool) (s : State) :
    (finishRx b s).replyCount = s.replyCount := rfl
@[simp] theorem finishRx_lastSendTimestamp (b : Bool) (s : State) :
    (finishRx b s).lastSendTimestamp = s.lastSendTimestamp := rfl
@[simp] theorem finishRx_rxArmed (b : Bool) (s : State) :
    (finishRx b s).rxArmed = b := rfl
@[simp] theorem finishRx_tmrArmed (b : Bool) (s : State) :
    (finishRx b s).tmrArmed = s.tmrArmed := rfl
@[simp] theorem finishRx_tmrKind (b : Bool) (s : State) :
    (finishRx b s).tmrKind = s.tmrKind := rfl
@[simp] theorem finishRx_tmrDeadline (b : Bool) (s : State) :
    (finishRx b s).tmrDeadline = s.tmrDeadline := rfl
@[simp] theorem finishRx_tmrForced (b : Bool) (s : State) :
    (finishRx b s).tmrForced = s.tmrForced := rfl
@[simp] theorem finishRx_now (b : Bool) (s : State) :
    (finishRx b s).now = s.now := rfl
@[simp] theorem finishRx_rxbuf (b : Bool) (s : State) :
    (finishRx b s).rxbuf = [] := rfl
@[simp] theorem finishRx_rxLen (b : Bool) (s : State) :
    (finishRx b s).rxLen = s.rxLen := rfl
@[simp] theorem finishRx_txbuf (b : Bool) (s : State) :
    (finishRx b s).txbuf = s.txbuf := rfl
@[simp] theorem finishRx_out (b : Bool) (s : State) :
    (finishRx b s).out = s.out := rfl
@[simp] theorem finishRx_result (b : Bool) (s : State) :
    (finishRx b s).result = s.result := rfl
@[simp] theorem finishRx_issues (b : Bool) (s : State) :
    (finishRx b s).issues = s.issues := rfl
@[simp] theorem finishRx_freeIndex (b : Bool) (s : State) :
    (finishRx b s).freeIndex = s.freeIndex := rfl

@[simp] theorem discard_identifier (s : State) :
    (discard s).identifier = s.identifier := rfl
@[simp] theorem discard_maxCount (s : State) :
    (discard s).maxCount = s.maxCount := rfl
@[simp] theorem discard_payloadSize (s : State) :
    (discard s).payloadSize = s.payloadSize := rfl
@[simp] theorem discard_targetEndpoint (s : State) :
    (discard s).targetEndpoint = s.targetEndpoint := rfl
@[simp] theorem discard_cfgValid (s : State) :
    (discard s).cfgValid = s.cfgValid := rfl
@[simp] theorem discard_fsm (s : State) :
    (discard s).fsm = s.fsm := rfl
@[simp] theorem discard_sentCount (s : State) :
    (discard s).sentCount = s.sentCount := rfl
@[simp] theorem discard_replyCount (s : State) :
    (discard s).replyCount = s.replyCount := rfl
@[simp] theorem discard_lastSendTimestamp (s : State) :
    (discard s).lastSendTimestamp = s.lastSendTimestamp := rfl
@[simp] theorem discard_rxArmed (s : State) :
    (discard s).rxArmed = true := rfl
@[simp] theorem discard_tmrArmed (s : State) :
    (discard s).tmrArmed = s.tmrArmed := rfl
@[simp] theorem discard_tmrKind (s : State) :
    (discard s).tmrKind = s.tmrKind := rfl
@[simp] theorem discard_tmrDeadline (s : State) :
    (discard s).tmrDeadline = s.tmrDeadline := rfl
@[simp] theorem discard_tmrForced (s : State) :
    (discard s).tmrForced = s.tmrForced := rfl
@[simp] theorem discard_now (s : State) :
    (discard s).now = s.now := rfl
@[simp] theorem discard_rxbuf (s : State) :
    (discard s).rxbuf = [] := rfl
@[simp] theorem discard_rxLen (s : State) :
    (discard s).rxLen = s.rxLen := rfl
@[simp] theorem discard_txbuf (s : State) :
    (discard s).txbuf = s.txbuf := rfl
@[simp] theorem discard_out (s : State) :
    (discard s).out = s.out := rfl
@[simp] theorem discard_result (s : State) :
    (discard s).result = s.result := rfl
@[simp] theorem discard_issues (s : State) :
    (discard s).issues = s.issues := rfl
@[simp] theorem discard_freeIndex (s : State) :
    (discard s).freeIndex = s.freeIndex := rfl

@[simp] theorem endSession_identifier (s : State) :
    (endSession s).identifier = s.identifier := rfl
@[simp] theorem endSession_maxCount (s : State) :
    (endSession s).maxCount = s.maxCount := rfl
@[simp] theorem endSession_payloadSize (s : State) :
    (endSession s).payloadSize = s.payloadSize := rfl
@[simp] theorem endSession_targetEndpoint (s : State) :
    (endSession s).targetEndpoint = s.targetEndpoint := rfl
@[simp] theorem endSession_cfgValid (s : State) :
    (endSession s).cfgValid = s.cfgValid := rfl
@[simp] theorem endSession_fsm (s : State) :
    (endSession s).fsm = .done := rfl
@[simp] theorem endSession_sentCount (s : State) :
    (endSession s).sentCount = s.sentCount := rfl
@[simp] theorem endSession_replyCount (s : State) :
    (endSession s).replyCount = s.replyCount := rfl
@[simp] theorem endSession_lastSendTimestamp (s : State) :
    (endSession s).lastSendTimestamp = s.lastSendTimestamp := rfl
@[simp] theorem endSession_rxArmed (s : State) :
    (endSession s).rxArmed = false := rfl
@[simp] theorem endSession_tmrArmed (s : State) :
    (endSession s).tmrArmed = s.tmrArmed := rfl
@[simp] theorem endSession_tmrKind (s : State) :
    (endSession s).tmrKind = s.tmrKind := rfl
@[simp] theorem endSession_tmrDeadline (s : State) :
    (endSession s).tmrDeadline = s.tmrDeadline := rfl
@[simp] theorem endSession_tmrForced (s : State) :
    (endSession s).tmrForced = s.tmrForced := rfl
@[simp] theorem endSession_now (s : State) :
    (endSession s).now = s.now := rfl
@[simp] theorem endSession_rxbuf (s : State) :
    (endSession s).rxbuf = s.rxbuf := rfl
@[simp] theorem endSession_rxLen (s : State) :
    (endSession s).rxLen = s.rxLen := rfl
@[simp] theorem endSession_txbuf (s : State) :
    (endSession s).txbuf = s.txbuf := rfl
@[simp] theorem endSession_out (s : State) :
    (endSession s).out = s.out := rfl
@[simp] theorem endSession_result (s : State) :
    (endSession s).result = s.result := rfl
@[simp] theorem endSession_issues (s : State) :
    (endSession s).issues = s.issues := rfl
@[simp] theorem endSession_freeIndex (s : State) :
    (endSession s).freeIndex = s.freeIndex := rfl

@[simp] theorem cancelTimeout_identifier (s : State) : (cancelTimeout s).identifier = s.identifier := by
  unfold cancelTimeout; split <;> rfl
@[simp] theorem cancelTimeout_maxCount (s : State) : (cancelTimeout s).maxCount = s.maxCount := by
  unfold cancelTimeout; split <;> rfl
@[simp] theorem cancelTimeout_payloadSize (s : State) : (cancelTimeout s).payloadSize = s.payloadSize := by
  unfold cancelTimeout; split <;> rfl
@[simp] theorem cancelTimeout_targetEndpoint (s : State) : (cancelTimeout s).targetEndpoint = s.targetEndpoint := by
  unfold cancelTimeout; split <;> rfl
@[simp] theorem cancelTimeout_cfgValid (s : State) : (cancelTimeout s).cfgValid = s.cfgValid := by
  unfold cancelTimeout; split <;> rfl
@[simp] theorem cancelTimeout_fsm (s : State) : (cancelTimeout s).fsm = s.fsm := by
  unfold cancelTimeout; split <;> rfl
@[simp] theorem cancelTimeout_sentCount (s : State) : (cancelTimeout s).sentCount = s.sentCount := by
  unfold cancelTimeout; split <;> rfl
@[simp] theorem cancelTimeout_replyCount (s : State) : (cancelTimeout s).replyCount = s.replyCount := by
  unfold cancelTimeout; split <;> rfl
@[simp] theorem cancelTimeout_lastSendTimestamp (s : State) : (cancelTimeout s).lastSendTimestamp = s.lastSendTimestamp := by
  unfold cancelTimeout; split <;> rfl
@[simp] theorem cancelTimeout_rxArmed (s : State) : (cancelTimeout s).rxArmed = s.rxArmed := by
  unfold cancelTimeout; split <;> rfl
@[simp] theorem cancelTimeout_tmrArmed (s : State) : (cancelTimeout s).tmrArmed = s.tmrArmed := by
  unfold cancelTimeout; split <;> rfl
@[simp] theorem cancelTimeout_tmrKind (s : State) : (cancelTimeout s).tmrKind = s.tmrKind := by
  unfold cancelTimeout; split <;> rfl
@[simp] theorem cancelTimeout_tmrDeadline (s : State) : (cancelTimeout s).tmrDeadline = s.tmrDeadline := by
  unfold cancelTimeout; split <;> rfl
@[simp] theorem cancelTimeout_tmrForced (s : State) :
    (cancelTimeout s).tmrForced = (s.tmrForced || (s.tmrArmed && decide (s.tmrKind = .timeout))) := by
  unfold cancelTimeout
  by_cases h : s.tmrArmed = true ∧ s.tmrKind = .timeout
  · simp [h]
  · cases ha : s.tmrArmed <;> simp_all
@[simp] theorem cancelTimeout_now (s : State) : (cancelTimeout s).now = s.now := by
  unfold cancelTimeout; split <;> rfl
@[simp] theorem cancelTimeout_rxbuf (s : State) : (cancelTimeout s).rxbuf = s.rxbuf := by
  unfold cancelTimeout; split <;> rfl
@[simp] theorem cancelTimeout_rxLen (s : State) : (cancelTimeout s).rxLen = s.rxLen := by
  unfold cancelTimeout; split <;> rfl
@[simp] theorem cancelTimeout_txbuf (s : State) : (cancelTimeout s).txbuf = s.txbuf := by
  unfold cancelTimeout; split <;> rfl
@[simp] theorem cancelTimeout_out (s : State) : (cancelTimeout s).out = s.out := by
  unfold cancelTimeout; split <;> rfl
@[simp] theorem cancelTimeout_result (s : State) : (cancelTimeout s).result = s.result := by
  unfold cancelTimeout; split <;> rfl
@[simp] theorem cancelTimeout_issues (s : State) : (cancelTimeout s).issues = s.issues := by
  unfold cancelTimeout; split <;> rfl
@[simp] theorem cancelTimeout_freeIndex (s : State) : (cancelTimeout s).freeIndex = s.freeIndex := by
  unfold cancelTimeout; split <;> rfl

end Sys2Proof.Laws
end

