-- ==== Sys2Proof/Laws/Session.lean ====
section
/-! SUPPORT. What the shared session operations can do, said once: sending a request and receiving a datagram. -/

namespace Sys2Proof.Laws

open Sys2Proof Sys2Proof.Machine

theorem length_icmpenc (t c : Byte) (i q : Half) (p : List Byte) :
    (icmpenc t c i q p).length = 8 := rfl

theorem length_fillerPayload (size : Half) : (fillerPayload size).length = size.toNat := by
  simp [fillerPayload]

/-- A stored request is read back whole by the transmit port. -/
theorem readRange_storeRequest (header payload : List Byte) (s : State) (n : Nat)
    (hn : n = header.length + payload.length) :
    readRange (storeRequest header payload s).txbuf 0 n = some (header ++ payload) := by
  have h := writeBytes_loadBytes header payload 0
  rw [Nat.zero_add] at h
  rw [hn, storeRequest, h, ← List.length_append]
  exact readRange_loadBytes _ 0

/-- `send_request` with no request left (R173): the no-op branch. -/
theorem sendRequest_finished {s : State} (h : s.sentCount = s.maxCount) :
    sendRequest s = .next { s with rxArmed := false, fsm := .done } := by
  simp [sendRequest, h, endSession]

/-- `send_request` with a request left (R173): everything it does. -/
theorem sendRequest_transmits {s : State} (h : s.sentCount ≠ s.maxCount) :
    sendRequest s = .next { s with
      fsm := .awaitingReply
      sentCount := s.sentCount + 1#16
      replyCount := 0#16
      lastSendTimestamp := s.now
      tmrArmed := true
      tmrKind := .timeout
      tmrDeadline := s.now + Config.tTimeout
      tmrForced := false
      txbuf := []
      out := s.out ++ [.tx s.targetEndpoint
        (icmpenc Config.icmpEchoRequest 0#8 s.identifier (s.sentCount + 1#16)
          (fillerPayload s.payloadSize) ++ fillerPayload s.payloadSize)] } := by
  have hr := readRange_storeRequest
    (icmpenc Config.icmpEchoRequest 0#8 s.identifier (s.sentCount + 1#16)
      (fillerPayload s.payloadSize)) (fillerPayload s.payloadSize)
    { s with fsm := .sending, sentCount := s.sentCount + 1#16, lastSendTimestamp := s.now }
    (8 + s.payloadSize.toNat) (by rw [length_icmpenc, length_fillerPayload])
  simp only [sendRequest, h, if_false, transmit, buildRequest, hr, Option.map_some]
  rfl

/-- `send_request` never stops. -/
theorem sendRequest_next (s : State) : ∃ t, sendRequest s = .next t := by
  by_cases h : s.sentCount = s.maxCount
  · exact ⟨_, sendRequest_finished h⟩
  · exact ⟨_, sendRequest_transmits h⟩

/-- `send_request` leaves the result port as it is. -/
theorem sendRequest_result {s t : State} (h : sendRequest s = .next t) : t.result = s.result := by
  by_cases hc : s.sentCount = s.maxCount
  · rw [sendRequest_finished hc] at h
    exact Host.Outcome.next.inj h ▸ rfl
  · rw [sendRequest_transmits hc] at h
    exact Host.Outcome.next.inj h ▸ rfl

theorem deliver_length {d : List Byte} (h : d.length ≤ Config.rxMax) :
    (BitVec.ofNat 16 d.length).toNat = d.length := by
  simp [Config.rxMax] at h ⊢
  omega

/-- What `handle_receive` does with a delivered datagram (R178): it is screened, then discarded or accepted. -/
theorem handleReceive_deliver {d : List Byte} (h : d.length ≤ Config.rxMax) (s : State) :
    handleReceive (deliver d s) =
      match screen s d with
      | .dropped _ => .next (discard (deliver d s))
      | .accepted v4 vi => .next (acceptReply v4 vi { deliver d s with rxArmed := false }) := by
  have hr : readRange (deliver d s).rxbuf 0 (deliver d s).rxLen.toNat = some d := by
    rw [deliver_rxbuf, deliver_rxLen, deliver_length h]
    exact readRange_loadBytes d 0
  have hs : screen { deliver d s with rxArmed := false } d = screen s d := rfl
  simp only [handleReceive, hr, hs]
  rfl

/-- An enabled RX (R178). -/
theorem execRx_enabled {d : List Byte} {s : State} (ha : s.rxArmed = true)
    (h : d.length ≤ Config.rxMax) :
    execRx d s =
      match screen s d with
      | .dropped _ => .next (discard (deliver d (clearResult s)))
      | .accepted v4 vi =>
        .next (acceptReply v4 vi { deliver d (clearResult s) with rxArmed := false }) := by
  simp only [execRx, ha, lengthAtMost, h, decide_true, if_true]
  exact handleReceive_deliver h (clearResult s)

/-- The saturating increment never gives 0 (R28, D11). -/
theorem satInc_pos (v : Half) : 1 ≤ (satInc v).toNat := by
  unfold satInc
  split
  · decide
  · rename_i h
    have hv := v.isLt
    have : v.toNat ≠ 65535 := fun he => h (BitVec.eq_of_toNat_eq (by simpa using he))
    rw [BitVec.toNat_add]
    simp
    omega

/-- The registers an accepted reply leaves (R178). -/
theorem acceptReply_eq (v4 : Ip4View) (vi : IcmpView) (s : State) :
    acceptReply v4 vi s = { s with
      tmrForced := s.tmrForced ||
        (decide (s.replyCount = 0#16) && s.tmrArmed && decide (s.tmrKind = .timeout))
      replyCount := satInc s.replyCount
      out := s.out ++ [replyRecord v4 vi s]
      rxArmed := !decide (s.sentCount = s.maxCount)
      rxbuf := [] } := by
  by_cases h0 : s.replyCount = 0#16
  · by_cases hc : s.tmrArmed = true ∧ s.tmrKind = .timeout
    · simp [acceptReply, h0, cancelTimeout, hc, emit, finishRx, releaseRx, replyRecord]
    · have : (s.tmrArmed && decide (s.tmrKind = .timeout)) = false := by
        cases ha : s.tmrArmed <;> simp_all
      simp [acceptReply, h0, cancelTimeout, hc, emit, finishRx, releaseRx, replyRecord, this]
  · simp [acceptReply, h0, emit, finishRx, releaseRx, replyRecord]

/-- What a discarded datagram leaves (R221, R222): the listener armed, the buffer released. -/
theorem discard_deliver (d : List Byte) (s : State) :
    discard (deliver d s) =
      { s with rxArmed := true, rxbuf := [], rxLen := BitVec.ofNat 16 d.length } := rfl

/-- What an accepted datagram leaves (R178). -/
theorem acceptReply_deliver (d : List Byte) (v4 : Ip4View) (vi : IcmpView) (s : State) :
    acceptReply v4 vi { deliver d s with rxArmed := false } = { s with
      tmrForced := s.tmrForced ||
        (decide (s.replyCount = 0#16) && s.tmrArmed && decide (s.tmrKind = .timeout))
      replyCount := satInc s.replyCount
      out := s.out ++ [.reply (BitVec.ofNat 16 d.length - v4.headerLengthBytes.setWidth 16)
        v4.source vi.sequenceNumber v4.ttl (s.now - s.lastSendTimestamp)]
      rxArmed := !decide (s.sentCount = s.maxCount)
      rxbuf := []
      rxLen := BitVec.ofNat 16 d.length } := by
  rw [acceptReply_eq]
  rfl

end Sys2Proof.Laws
end

