-- ==== Sys2Proof/Laws/Exec.lean ====
section
/-! SUPPORT. When an instruction answers a next state, and which one: one inversion lemma per session operation, one for the instructions that answer on the result port together, one for a step. -/

namespace Sys2Proof.Laws

open Sys2Proof Sys2Proof.Machine

theorem execCfg_next_iff {id max size : Half} {dst : Word} {s t : State} :
    exec (.cfg id max size dst) s = .next t ↔
      s.fsm = .idle ∧ t = { s with
        identifier := id, maxCount := max, payloadSize := size, targetEndpoint := dst,
        cfgValid := true, result := none } := by
  simp only [exec, execCfg, clearResult, cfgEnabled_iff]
  split <;> simp_all [eq_comm]

theorem execStart_next_iff {s t : State} :
    exec .start s = .next t ↔
      (s.fsm = .idle ∧ s.cfgValid = true) ∧ 
        sendRequest { clearResult s with rxArmed := true } = .next t := by
  simp only [exec, execStart, startEnabled_iff]
  split <;> simp_all

theorem execRsnd_next_iff {s t : State} :
    exec .rsnd s = .next t ↔
      (s.tmrArmed = true ∧ s.tmrKind = .resend ∧ s.tmrDeadline ≤ s.now) ∧
        sendRequest (consumeWait (clearResult s)) = .next t := by
  simp only [exec, execRsnd, rsndEnabled_iff]
  split <;> simp_all

theorem execTmo_next_iff {s t : State} :
    exec .tmo s = .next t ↔
      (s.tmrArmed = true ∧ s.tmrKind = .timeout ∧ (s.tmrForced = true ∨ s.tmrDeadline ≤ s.now)) ∧
        t = { s with
          tmrArmed := true, tmrKind := .resend, tmrDeadline := s.now + Config.tResend,
          tmrForced := false, result := none,
          out := if s.replyCount = 0#16 then s.out ++ [.timeoutNote] else s.out } := by
  simp only [exec, execTmo, tmoEnabled_iff]
  split
  · rename_i h
    simp only [h, and_self, true_and, Host.Outcome.next.injEq]
    by_cases h0 : s.replyCount = 0#16
    · simp [h0, arm, emit, consumeWait, clearResult, eq_comm]
    · simp [h0, arm, consumeWait, clearResult, eq_comm]
  · rename_i h
    simp [h]

theorem execAdv_next_iff {d : Time} {s t : State} :
    exec (.adv d) s = .next t ↔
      s.now.toNat + d.toNat + 3 * 1000000 < 2 ^ 64 ∧ 
        t = { s with now := s.now + d, result := none } := by
  simp only [exec, execAdv, clearResult, advEnabled_iff]
  split <;> simp_all [eq_comm]

theorem execRx_next_iff {d : List Byte} {s t : State} :
    exec (.rx d) s = .next t ↔
      (s.rxArmed = true ∧ d.length ≤ Config.rxMax) ∧
        ((∃ f, screen s d = .dropped f ∧
            t = { s with
              rxArmed := true, rxbuf := [], rxLen := BitVec.ofNat 16 d.length, result := none }) ∨
          (∃ v4 vi, screen s d = .accepted v4 vi ∧ t = { s with
            tmrForced := s.tmrForced ||
              (decide (s.replyCount = 0#16) && s.tmrArmed && decide (s.tmrKind = .timeout))
            replyCount := satInc s.replyCount
            out := s.out ++ [.reply (BitVec.ofNat 16 d.length - v4.headerLengthBytes.setWidth 16)
              v4.source vi.sequenceNumber v4.ttl (s.now - s.lastSendTimestamp)]
            rxArmed := !decide (s.sentCount = s.maxCount)
            rxbuf := []
            rxLen := BitVec.ofNat 16 d.length
            result := none })) := by
  by_cases ha : s.rxArmed = true
  · by_cases hl : d.length ≤ Config.rxMax
    · rw [exec, execRx_enabled ha hl]
      cases screen s d with
      | dropped f =>
        constructor
        · intro h
          exact ⟨⟨ha, hl⟩, .inl ⟨f, rfl, (Host.Outcome.next.inj h).symm⟩⟩
        · rintro ⟨-, ⟨_, -, rfl⟩ | ⟨_, _, h, -⟩⟩
          · rfl
          · cases h
      | accepted v4 vi =>
        simp only [acceptReply_deliver]
        constructor
        · intro h
          exact ⟨⟨ha, hl⟩, .inr ⟨v4, vi, rfl, (Host.Outcome.next.inj h).symm⟩⟩
        · rintro ⟨-, ⟨_, h, -⟩ | ⟨_, _, h, rfl⟩⟩
          · cases h
          · cases h
            rfl
    · simp [exec, execRx, ha, lengthAtMost, hl]
  · simp [exec, execRx, ha]

/-- An instruction that answers touches the result port alone. -/
theorem exec_answer_next {i : Instr} (hi : answers i = true) {s t : State}
    (h : exec i s = .next t) : ∃ r, t = setResult r s := by
  cases i <;> simp only [answers, reduceCtorEq] at hi <;>
    simp only [exec, execCsum, execCsumchk, execIcmpenc, execIcmpdec, execIp4dec, execEchoRequest,
      execEchoReply, execIpv4Header, presentIcmpHeader] at h
  case echoRequest => exact ⟨_, (Host.Outcome.next.inj h).symm⟩
  case echoReply => exact ⟨_, (Host.Outcome.next.inj h).symm⟩
  all_goals
    split at h
    · exact ⟨_, (Host.Outcome.next.inj h).symm⟩
    · cases h

/-- Every other instruction leaves nothing on the result port (R135). -/
theorem exec_result_none {i : Instr} (hi : answers i = false) {s t : State}
    (h : exec i s = .next t) : t.result = none := by
  cases i <;> simp only [answers, Bool.true_eq_false] at hi
  case cfg => exact (execCfg_next_iff.mp h).2 ▸ rfl
  case start =>
    obtain ⟨-, h⟩ := execStart_next_iff.mp h
    exact (sendRequest_result h).trans rfl
  case rx =>
    obtain ⟨-, ⟨_, -, rfl⟩ | ⟨_, _, -, rfl⟩⟩ := execRx_next_iff.mp h <;> rfl
  case tmo => exact (execTmo_next_iff.mp h).2 ▸ rfl
  case rsnd =>
    obtain ⟨-, h⟩ := execRsnd_next_iff.mp h
    exact (sendRequest_result h).trans rfl
  case adv => exact (execAdv_next_iff.mp h).2 ▸ rfl
  case reset => exact Host.Outcome.next.inj h ▸ rfl
  all_goals cases h

/-- A step waits, or runs the decoded instruction on the state without its issue. -/
theorem step_next_cases {s t : State} (h : step s = .next t) :
    (s.issues = [] ∧ t = clearResult s) ∨
      ∃ iss rest i, s.issues = iss :: rest ∧ decode iss = .ok i ∧
        exec i { s with issues := rest } = .next t := by
  unfold step at h
  split at h
  · rename_i hi
    exact .inl ⟨hi, (Host.Outcome.next.inj h).symm⟩
  · rename_i iss rest hi
    split at h
    · cases h
    · rename_i i hd
      exact .inr ⟨iss, rest, i, hi, hd, h⟩

end Sys2Proof.Laws
end

