-- ==== Sys2Proof/Laws/PerInstr.lean ====
section
/-! SUPPORT. Statements about every instruction as syntax, one lemma per constructor. -/

namespace Sys2Proof.Laws.TableRow

open Sys2Proof Sys2Proof.Machine

/-- The match and mask of an instruction's row of spec/opcode_table.json over the leading bytes of its selecting word, first byte first. -/
def row : Instr → List (Byte × Byte)
  | .cfg _ _ _ _ => [(0x1#8, 0xF#8)]
  | .start => [(0x2#8, 0xF#8)]
  | .rx _ => [(0x3#8, 0xF#8)]
  | .tmo => [(0x4#8, 0xF#8)]
  | .rsnd => [(0x5#8, 0xF#8)]
  | .adv _ => [(0x6#8, 0xF#8)]
  | .csum _ _ _ _ _ => [(0x8#8, 0xF#8)]
  | .csumchk _ => [(0x9#8, 0xF#8)]
  | .icmpenc _ _ _ _ _ => [(0xA#8, 0xF#8)]
  | .icmpdec _ => [(0xB#8, 0xF#8)]
  | .ip4dec _ => [(0xC#8, 0xF#8)]
  | .reset => [(0xF#8, 0xF#8)]
  | .reserved0 => [(0x0#8, 0xF#8)]
  | .reserved7 => [(0x7#8, 0xF#8)]
  | .reservedD => [(0xD#8, 0xF#8)]
  | .reservedE => [(0xE#8, 0xF#8)]
  | .echoRequest _ _ _ => [(0x08#8, 0xFF#8), (0x00#8, 0xFF#8)]
  | .echoReply _ _ _ _ => [(0x00#8, 0xFF#8)]
  | .ipv4Header _ _ => [(0x40#8, 0xF0#8)]

/-- The leading bytes agree with a match wherever its mask is 1. -/
def agrees : List (Byte × Byte) → List Byte → Bool
  | [], _ => true
  | _ :: _, [] => false
  | (m, k) :: rows, b :: bytes => decide (b &&& k = m) && agrees rows bytes

/-- The encoder's selecting word has the bits that the instruction's row fixes. -/
def Statement (i : Instr) : Prop := agrees (row i) (encodeWord i) = true

theorem ipVersion_append_masked (v : BitVec 4) :
    (Config.ipVersion ++ v : Byte) &&& 0xF0#8 = 0x40#8 := by
  revert v; decide

theorem cfg (id max size : Half) (dst : Word) : Statement (.cfg id max size dst) := rfl
theorem start : Statement .start := rfl
theorem rx (d : List Byte) : Statement (.rx d) := rfl
theorem tmo : Statement .tmo := rfl
theorem rsnd : Statement .rsnd := rfl
theorem adv (d : Time) : Statement (.adv d) := rfl
theorem csum (t c : Byte) (i q : Half) (p : List Byte) : Statement (.csum t c i q p) := rfl
theorem csumchk (m : List Byte) : Statement (.csumchk m) := rfl
theorem icmpenc (t c : Byte) (i q : Half) (p : List Byte) : Statement (.icmpenc t c i q p) := rfl
theorem icmpdec (b : List Byte) : Statement (.icmpdec b) := rfl
theorem ip4dec (b : List Byte) : Statement (.ip4dec b) := rfl
theorem reset : Statement .reset := rfl
theorem reserved0 : Statement .reserved0 := rfl
theorem reserved7 : Statement .reserved7 := rfl
theorem reservedD : Statement .reservedD := rfl
theorem reservedE : Statement .reservedE := rfl
theorem echoRequest (c i q : Half) : Statement (.echoRequest c i q) := rfl

theorem echoReply (k : Byte) (c i q : Half) : Statement (.echoReply k c i q) := by
  simp [Statement, row, encodeWord, icmpHeaderBytes, agrees, Config.icmpEchoReply]

theorem ipv4Header (h : Ip4Fields) (o : List Byte) : Statement (.ipv4Header h o) := by
  simp [Statement, row, encodeWord, ip4HeaderBytes, agrees, ipVersion_append_masked]

end Sys2Proof.Laws.TableRow
end

