-- ==== Sys2Proof/Laws/Script.lean ====
section
/-! SUPPORT. A run of several operations, taken apart once, and the small lemmas of the relations that statements about runs use. -/

namespace Sys2Proof.Laws

open Sys2Proof Sys2Proof.Machine

@[simp] theorem execAll_nil (s : State) : execAll [] s = .next s := rfl

/-- A run that gets through: its first operation gives a state, and the rest runs from it. -/
theorem execAll_cons_next_iff {i : Instr} {is : List Instr} {s t : State} :
    execAll (i :: is) s = .next t ↔ ∃ u, exec i s = .next u ∧ execAll is u = .next t := by
  rw [execAll]
  cases exec i s <;> simp

/-- A line that expands runs its expansion. -/
theorem execLine_of_expandLine {line : ScriptLine} {is : List Instr} {s : State}
    (h : expandLine line s = some is) : execLine line s = execAll is s := by
  rw [execLine, h]

theorem agreeWhereValued_refl (s : State) : AgreeWhereValued s s :=
  ⟨rfl, rfl, rfl, rfl, rfl, rfl, rfl, rfl, rfl, rfl, rfl, fun _ => ⟨rfl, rfl, rfl, rfl⟩,
    fun _ => ⟨rfl, rfl, rfl⟩⟩

theorem timerEventsLeft_awaiting {s : State} (h : s.fsm = .awaitingReply) :
    timerEventsLeft s =
      2 * (s.maxCount.toNat - s.sentCount.toNat) + (if s.tmrKind = .timeout then 2 else 1) := by
  rw [timerEventsLeft, h]

theorem timerEventsLeft_of_not_awaiting {s : State} (h : s.fsm ≠ .awaitingReply) :
    timerEventsLeft s = 0 := by
  unfold timerEventsLeft
  split
  · exact absurd ‹_› h
  all_goals rfl

end Sys2Proof.Laws
end

