-- ==== Sys2Proof/Tests/Slice0.lean ====
section
/-! SUPPORT. The model's own tests.  Expected results come from spec/95_test_vectors.md (the vector is named) and from the enabling and encoding tables; the witnesses of the statements stand in the second half. -/

namespace Sys2Proof.Tests

open Sys2Proof Sys2Proof.Machine

/-! ### Small states -/

/-- One field (or several) of the next state; `none` where there is none. -/
def after {α : Type} (o : Host.Outcome State Fault Refusal) (f : State → α) : Option α :=
  match o with
  | .next t => some (f t)
  | .fault _ => none
  | .refused _ => none

/-- Why there is no next state. -/
def refusal (o : Host.Outcome State Fault Refusal) : Option Refusal :=
  match o with
  | .next _ => none
  | .fault _ => none
  | .refused r => some r

/-- Configured for three requests without payload, as program P3. -/
def ready : State :=
  { State.reset with
    identifier := 0x1234#16, maxCount := 3#16, targetEndpoint := 0x0A000002#32, cfgValid := true }

/-- The requests with sequence numbers 1 and 2 of program P3. -/
def requests : List Record :=
  [.tx 0x0A000002#32 [0x08#8, 0x00#8, 0xE5#8, 0xCA#8, 0x12#8, 0x34#8, 0x00#8, 0x01#8],
    .tx 0x0A000002#32 [0x08#8, 0x00#8, 0xE5#8, 0xC9#8, 0x12#8, 0x34#8, 0x00#8, 0x02#8]]

/-- The common state of the vectors X1 to X13. -/
def awaiting : State :=
  { ready with
    fsm := .awaitingReply, sentCount := 2#16, lastSendTimestamp := 3000000#64, rxArmed := true,
    tmrArmed := true, tmrKind := .timeout, tmrDeadline := 5000000#64, now := 3100000#64,
    out := requests }

/-- The same at the deadline: the reply and the timeout race. -/
def racing : State := { awaiting with now := 5000000#64 }

/-- The state that X1 leaves: answered, the wait cancelled. -/
def answered : State := { awaiting with tmrForced := true, replyCount := 1#16 }

/-- A RESEND wait that has completed, one request left. -/
def resending : State :=
  { awaiting with tmrKind := .resend, tmrDeadline := 6000000#64, now := 6000000#64 }

/-- The same after the last request. -/
def finishing : State := { resending with maxCount := 2#16 }

/-- The end of the session. -/
def ended : State :=
  { finishing with fsm := .done, rxArmed := false, tmrArmed := false }

/-- The IPv4 header of X1. -/
def ipHeader : List Byte :=
  [0x45#8, 0x00#8, 0x00#8, 0x1C#8, 0x00#8, 0x00#8, 0x00#8, 0x00#8, 0x40#8, 0x01#8,
    0x00#8, 0x00#8, 0x0A#8, 0x00#8, 0x00#8, 0x02#8, 0x0A#8, 0x00#8, 0x00#8, 0x01#8]

/-- The datagram of X1: a matching reply. -/
def reply : List Byte := ipHeader ++ [0x00#8, 0x00#8, 0xED#8, 0xC9#8, 0x12#8, 0x34#8, 0x00#8, 0x02#8]

/-- The datagram of X11: code 5 and checksum 0, which are not tested. -/
def replyOtherCode : List Byte :=
  ipHeader ++ [0x00#8, 0x05#8, 0x00#8, 0x00#8, 0x12#8, 0x34#8, 0x00#8, 0x02#8]

/-- The datagram of X6: a stale sequence number. -/
def staleReply : List Byte :=
  ipHeader ++ [0x00#8, 0x00#8, 0xED#8, 0xCA#8, 0x12#8, 0x34#8, 0x00#8, 0x01#8]

/-! ### Well-formedness refuses what is outside an operand domain (R190) -/

theorem test_wf_rx : (Instr.rx (List.replicate 65536 0#8)).wellFormed = false := by
  rw [Instr.wellFormed, List.length_replicate]; decide

theorem test_wf_csum : (Instr.csum 8 0 0 0 (List.replicate 65536 0#8)).wellFormed = false := by
  rw [Instr.wellFormed, List.length_replicate]; decide

theorem test_wf_csumchk_short : (Instr.csumchk [0, 0, 0, 0, 0, 0, 0]).wellFormed = false := by
  decide

theorem test_wf_csumchk_long : (Instr.csumchk (List.replicate 65544 0#8)).wellFormed = false := by
  rw [Instr.wellFormed, List.length_replicate]; decide

theorem test_wf_icmpenc : (Instr.icmpenc 8 0 0 0 (List.replicate 65536 0#8)).wellFormed = false := by
  rw [Instr.wellFormed, List.length_replicate]; decide

theorem test_wf_icmpdec : (Instr.icmpdec (List.replicate 65536 0#8)).wellFormed = false := by
  rw [Instr.wellFormed, List.length_replicate]; decide

theorem test_wf_ip4dec : (Instr.ip4dec (List.replicate 65536 0#8)).wellFormed = false := by
  rw [Instr.wellFormed, List.length_replicate]; decide

/-- A bare IPv4 header with a given `ihl`. -/
def headerOf (ihl : BitVec 4) : Ip4Fields :=
  { ihl := ihl, tos := 0, totalLength := 0, identification := 0, z := 0, df := 0, mf := 0,
    fragmentOffset := 0, ttl := 64, protocol := 1, headerChecksum := 0, source := 0,
    destination := 0 }

/-- R84, R85: `ihl` 4, one option byte too many and one too few; `ihl` 5 and 15 with what they declare. -/
theorem test_wf_ipv4Header :
    (Instr.ipv4Header (headerOf 4) []).wellFormed = false ∧
      (Instr.ipv4Header (headerOf 5) [0]).wellFormed = false ∧
      (Instr.ipv4Header (headerOf 6) [0, 0, 0]).wellFormed = false ∧
      (Instr.ipv4Header (headerOf 5) []).wellFormed = true ∧
      (Instr.ipv4Header (headerOf 15) (List.replicate 40 0)).wellFormed = true := by decide

theorem test_wf_admits_the_limits :
    (Instr.rx (List.replicate 65535 0#8)).wellFormed = true ∧
      (Instr.csumchk (List.replicate 65543 0#8)).wellFormed = true ∧
      (Instr.csumchk (List.replicate 8 0#8)).wellFormed = true := by
  refine ⟨?_, ?_, ?_⟩ <;> rw [Instr.wellFormed, List.length_replicate] <;> decide

/-! ### Decoding: words written out from the tables of R89 and R82, R83 -/

/-- Ports with a different value on each. -/
def ports : Ports :=
  { id := 0x1234#16, max := 3#16, size := 32#16, dst := 0x0A000002#32, datagram := [0x45#8],
    d := 10000#64, type := 8#8, code := 1#8, identifier := 0xBEEF#16, sequenceNumber := 7#16,
    payload := [0x61#8], message := [1, 2, 3, 4, 5, 6, 7, 8], bytes := [0x46#8, 0x10#8] }

theorem test_decode_cfg :
    decode ⟨[0x01#8], ports⟩ = .ok (.cfg 0x1234#16 3#16 32#16 0x0A000002#32) := rfl
theorem test_decode_start : decode ⟨[0x02#8], ports⟩ = .ok .start := rfl
theorem test_decode_rx : decode ⟨[0x03#8], ports⟩ = .ok (.rx [0x45#8]) := rfl
theorem test_decode_tmo : decode ⟨[0x04#8], ports⟩ = .ok .tmo := rfl
theorem test_decode_rsnd : decode ⟨[0x05#8], ports⟩ = .ok .rsnd := rfl
theorem test_decode_adv : decode ⟨[0x06#8], ports⟩ = .ok (.adv 10000#64) := rfl
theorem test_decode_csum :
    decode ⟨[0x08#8], ports⟩ = .ok (.csum 8#8 1#8 0xBEEF#16 7#16 [0x61#8]) := rfl
theorem test_decode_csumchk :
    decode ⟨[0x09#8], ports⟩ = .ok (.csumchk [1, 2, 3, 4, 5, 6, 7, 8]) := rfl
theorem test_decode_icmpenc :
    decode ⟨[0x0A#8], ports⟩ = .ok (.icmpenc 8#8 1#8 0xBEEF#16 7#16 [0x61#8]) := rfl
theorem test_decode_icmpdec : decode ⟨[0x0B#8], ports⟩ = .ok (.icmpdec [0x46#8, 0x10#8]) := rfl
theorem test_decode_ip4dec : decode ⟨[0x0C#8], ports⟩ = .ok (.ip4dec [0x46#8, 0x10#8]) := rfl
theorem test_decode_reset : decode ⟨[0x0F#8], ports⟩ = .ok .reset := rfl
theorem test_decode_reserved :
    decode ⟨[0x00#8], ports⟩ = .ok .reserved0 ∧ decode ⟨[0x07#8], ports⟩ = .ok .reserved7 ∧
      decode ⟨[0x0D#8], ports⟩ = .ok .reservedD ∧ decode ⟨[0x0E#8], ports⟩ = .ok .reservedE :=
  ⟨rfl, rfl, rfl, rfl⟩

/-- V2 as a wire header. -/
theorem test_decode_echoRequest :
    decode ⟨[0x08#8, 0x00#8, 0xE5#8, 0xCA#8, 0x12#8, 0x34#8, 0x00#8, 0x01#8], ports⟩ =
      .ok (.echoRequest 0xE5CA#16 0x1234#16 0x0001#16) := rfl
/-- E8 as a wire header, with a code. -/
theorem test_decode_echoReply :
    decode ⟨[0x00#8, 0x05#8, 0xED#8, 0xCA#8, 0x12#8, 0x34#8, 0x00#8, 0x01#8], ports⟩ =
      .ok (.echoReply 0x05#8 0xEDCA#16 0x1234#16 0x0001#16) := rfl
/-- H4: the reserved flag bit set, a fragment. -/
theorem test_decode_ipv4Header :
    decode ⟨[0x45#8, 0x00#8, 0x00#8, 0x1C#8, 0x00#8, 0x00#8, 0xA0#8, 0x01#8, 0xFF#8, 0x01#8,
        0x00#8, 0x00#8, 0x00#8, 0x00#8, 0x00#8, 0x00#8, 0xFF#8, 0xFF#8, 0xFF#8, 0xFF#8], ports⟩ =
      .ok (.ipv4Header
        { ihl := 5#4, tos := 0#8, totalLength := 28#16, identification := 0#16, z := 1#1,
          df := 0#1, mf := 1#1, fragmentOffset := 1#13, ttl := 255#8, protocol := 1#8,
          headerChecksum := 0#16, source := 0#32, destination := 0xFFFFFFFF#32 } []) := rfl

/-- Words that are no instruction, one for each reason. -/
theorem test_decode_errors :
    decode ⟨[0x12#8], ports⟩ = .error .eventNibble ∧
      decode ⟨[0x02#8, 0x02#8], ports⟩ = .error .wordLength ∧ decode ⟨[], ports⟩ = .error .wordLength ∧
      decode ⟨[0x08#8, 0x01#8, 0, 0, 0, 0, 0, 0], ports⟩ = .error .icmpFormat ∧
      decode ⟨0x65#8 :: List.replicate 19 0#8, ports⟩ = .error .ipFormat ∧
      decode ⟨0x44#8 :: List.replicate 19 0#8, ports⟩ = .error .ipLength ∧
      decode ⟨0x45#8 :: List.replicate 20 0#8, ports⟩ = .error .ipOptions ∧
      decode ⟨0x46#8 :: List.replicate 22 0#8, ports⟩ = .error .ipOptions :=
  ⟨rfl, rfl, rfl, rfl, rfl, rfl, rfl, rfl⟩

/-- The encoder writes the operands on their ports and reads back. -/
theorem test_encode_cfg :
    encodeWord (.cfg 1 2 3 4) = [0x01#8] ∧ (encodePorts (.cfg 1 2 3 4)).dst = 4 ∧
      (encodePorts (.cfg 1 2 3 4)).max = 2 ∧ decode (encode (.cfg 1 2 3 4)) = .ok (.cfg 1 2 3 4) :=
  ⟨rfl, rfl, rfl, rfl⟩

/-- The opcode table's own numbers: the match of a row, most significant byte first on the wire. -/
theorem test_table_words :
    decodeTableWord 8 0x2 = some .start ∧ decodeTableWord 8 0xD = some .reservedD ∧
      decodeTableWord 64 0x0800E5CA12340001 = some (.echoRequest 0xE5CA#16 0x1234#16 1#16) ∧
      decodeTableWord 64 0x0005EDCA12340001 = some (.echoReply 5#8 0xEDCA#16 0x1234#16 1#16) := by
  decide

/-- A legal `ihl` brings its option bytes; the row's bare match has `ihl` 0 and fails R83's further condition. -/
theorem test_table_word_ipv4 :
    (decodeTableWord 160 (0x46 * 2 ^ 152)).map encodeWord =
        some (0x46#8 :: List.replicate 23 0#8) ∧
      decodeTableWord 160 (0x40 * 2 ^ 152) = none := by decide

/-- A step after `withFetchWord` runs that instruction first. -/
theorem test_fetch_word :
    step (State.reset.withFetchWord 8 0x6) = exec (.adv 0) State.reset ∧
      refusal (step (State.reset.withFetchWord 8 0x7)) = some (.reservedCode 0x7#4) ∧
      after (step (ready.withFetchWord 8 0x2)) (fun t => (t.fsm, t.sentCount, t.issues)) =
        some (.awaitingReply, 1#16, []) :=
  ⟨rfl, by decide, by decide⟩

/-! ### The checksum unit and the codecs -/

/-- V5 without its first 32 payload bytes, V6, V9, V17: odd length, one byte, several carries, a second fold. -/
theorem test_csum :
    csum 8 0 0x1234 1 [0xAB] = 0x3ACA#16 ∧ csum 8 0 0xFFFF 0xFFFF [0xFF, 0xFF, 0xFF, 0xFF] = 0xF7FF#16 ∧
      csum 255 255 0xFFFF 1 [] = 0xFFFE#16 ∧ csum 255 255 0 0 [] = 0x0000#16 := by decide

/-- V5: 33 bytes. -/
theorem test_csum_odd :
    after (exec (.csum 8 0 0x1234 1 (List.replicate 33 0x61#8)) awaiting) State.result =
      some (some (.checksum 0x6EB4#16)) := by decide

/-- K1, K2. -/
theorem test_csumchk :
    csumchk [0x08, 0x00, 0xE5, 0xCA, 0x12, 0x34, 0x00, 0x01] = true ∧
      csumchk [0x08, 0x00, 0xE5, 0xCB, 0x12, 0x34, 0x00, 0x01] = false := by decide

/-- K5, K6: the corner of R115. -/
theorem test_csumchk_corner :
    csumchk [0x00, 0x00, 0x00, 0x00, 0xFF, 0xFF, 0xFF, 0xFF] = true ∧
      csumchk [0x00, 0x00, 0xFF, 0xFF, 0xFF, 0xFF, 0xFF, 0xFF] = false := by decide

/-- E6, E7. -/
theorem test_icmpenc :
    icmpenc 8 0 0xBEEF 1 [0x61] = [0x08, 0x00, 0xD8, 0x0E, 0xBE, 0xEF, 0x00, 0x01] ∧
      icmpenc 255 255 0 0 [] = [0xFF, 0xFF, 0x00, 0x00, 0x00, 0x00, 0x00, 0x00] := by decide

/-- E9, E10, E12. -/
theorem test_icmpdec :
    icmpdec [0x03, 0x01, 0xFC, 0xFE, 0x00, 0x00, 0x00, 0x00] =
        .ok { type := 3, code := 1, checksum := 0xFCFE, identifier := 0, sequenceNumber := 0 } ∧
      icmpdec [0x00, 0x00, 0xED, 0xCA, 0x12, 0x34, 0x00] = .fail .icmpShort ∧
      icmpdec [0x00, 0x00, 0xED, 0xCA, 0x12, 0x34, 0x00, 0x01, 0x00] = .fail .icmpShort := by decide

/-- H2: options, don't fragment. -/
theorem test_ip4dec :
    ip4dec [0x46, 0x10, 0x00, 0x23, 0xAB, 0xCD, 0x40, 0x00, 0x80, 0x01, 0x12, 0x34, 0xC0, 0xA8,
        0x00, 0x01, 0x0A, 0x00, 0x00, 0x01, 0x01, 0x01, 0x01, 0x01] =
      .ok { version := 4, ihl := 6, tos := 0x10, totalLength := 35, identification := 0xABCD,
            df := 1, mf := 0, fragmentOffset := 0, ttl := 128, protocol := 1,
            headerChecksum := 0x1234, source := 0xC0A80001, destination := 0x0A000001,
            options := [1, 1, 1, 1], headerLengthBytes := 24 } := by decide

/-- H5, H7, H8, H11, H12 (its length), H13. -/
theorem test_ip4dec_failures :
    ip4dec (0x65 :: List.replicate 27 0) = .fail .ip4Version ∧
      ip4dec (0x40 :: List.replicate 19 0) = .fail .ip4Ihl ∧
      ip4dec (0x4F :: List.replicate 27 0) = .fail .ip4Trunc ∧
      ip4dec [0x65] = .fail .ip4Short ∧
      ip4dec (0x4F :: List.replicate 58 0) = .fail .ip4Trunc ∧
      ip4dec (0x4F :: List.replicate 59 0) ≠ .fail .ip4Trunc := by decide

/-- The failure codes of R220. -/
theorem test_failure_codes :
    [Failure.ip4Short, .ip4Version, .ip4Ihl, .ip4Trunc, .icmpShort, .notEchoReply, .idMismatch,
      .seqMismatch].map Failure.code = [1, 2, 3, 4, 5, 6, 7, 8] := by decide

/-- The codes of R30 and R32. -/
theorem test_state_codes :
    [Fsm.idle, .sending, .awaitingReply, .done].map Fsm.code = [0, 1, 2, 3] ∧
      [TmrKind.timeout, .resend].map TmrKind.code = [0, 1] := by decide

/-! ### The session -/

theorem test_reset :
    after (exec .reset answered) (fun t => (t.fsm, t.cfgValid, t.sentCount, t.replyCount)) =
        some (.idle, false, 0, 0) ∧
      after (exec .reset answered) (fun t => (t.rxArmed, t.tmrArmed, t.tmrForced)) =
        some (false, false, false) := ⟨rfl, rfl⟩

theorem test_reset_keeps : after (exec .reset answered) (fun t => (t.now, t.out)) =
    some (3100000#64, requests) := rfl

/-- CFG in IDLE, and refused in a session. -/
theorem test_cfg :
    after (exec (.cfg 0x1234 3 0 0x0A000002) State.reset) id = some ready ∧
      refusal (exec (.cfg 0x1234 3 0 0x0A000002) awaiting) = some .notEnabled := by decide

/-- P3's first lines: the request with sequence number 1 goes out. -/
theorem test_start :
    after (exec .start ready) (fun t => (t.out, t.tmrDeadline, t.rxArmed)) =
      some (requests.take 1, 2000000#64, true) := by decide

/-- P5: no request is ever sent. -/
theorem test_start_without_requests :
    after (exec .start { ready with maxCount := 0 }) (fun t => (t.fsm, t.rxArmed, t.out)) =
      some (.done, false, []) := by decide

/-- X1. -/
theorem test_rx_accepted :
    after (exec (.rx reply) awaiting) (fun t => (t.tmrForced, t.replyCount, t.rxArmed, t.out)) =
      some (true, 1, true, requests ++ [.reply 8 0x0A000002 2 64 100000]) := by decide

/-- X6 and X14: a stale reply changes nothing; the last reply tears the listener down. -/
theorem test_rx_dropped_and_last :
    after (exec (.rx staleReply) awaiting) (fun t => (t.tmrForced, t.replyCount, t.rxArmed, t.out)) =
        some (false, 0, true, requests) ∧
      after (exec (.rx reply) { awaiting with maxCount := 2 }) State.rxArmed = some false := by decide

/-- X2 to X10: the drop codes, in order. -/
theorem test_screen :
    screen awaiting (0x65 :: List.replicate 27 0) = .dropped .ip4Version ∧
      screen awaiting (reply.take 27) = .dropped .icmpShort ∧
      screen awaiting (ipHeader ++ [0x08, 0x00, 0xE5, 0xC9, 0x12, 0x34, 0x00, 0x02]) =
        .dropped .notEchoReply ∧
      screen awaiting (ipHeader ++ [0x00, 0x00, 0xBC, 0xDC, 0x43, 0x21, 0x00, 0x02]) =
        .dropped .idMismatch ∧
      screen awaiting staleReply = .dropped .seqMismatch := by decide

/-- X10: the options of a longer header leave too little. -/
theorem test_screen_options : screen awaiting (0x46 :: reply.tail) = .dropped .icmpShort := by decide

/-- T1 and T3, moved to this state's deadline. -/
theorem test_tmo :
    after (exec .tmo racing) (fun t => (t.tmrKind, t.tmrDeadline, t.out)) =
        some (.resend, 6000000, requests ++ [.timeoutNote]) ∧
      refusal (exec .tmo awaiting) = some .notEnabled := by decide

/-- T4: a cancelled wait, no notification; T8: a RESEND wait is not TMO's. -/
theorem test_tmo_forced :
    after (exec .tmo answered) (fun t => (t.tmrKind, t.tmrDeadline, t.tmrForced, t.out)) =
        some (.resend, 4100000, false, requests) ∧
      refusal (exec .tmo resending) = some .notEnabled := by decide

/-- P3's last line with no payload (V21). -/
theorem test_rsnd :
    after (exec .rsnd resending) (fun t => (t.sentCount, t.lastSendTimestamp, t.tmrDeadline, t.out)) =
      some (3, 6000000, 8000000, requests ++
        [.tx 0x0A000002 [0x08, 0x00, 0xE5, 0xC8, 0x12, 0x34, 0x00, 0x03]]) := by decide

/-- T7: the session is over. -/
theorem test_rsnd_last :
    after (exec .rsnd finishing) (fun t => (t.fsm, t.rxArmed, t.tmrArmed, t.out)) =
      some (.done, false, false, requests) := by decide

/-- The edge of the premise of R33. -/
theorem test_adv :
    after (exec (.adv 0xFFFFFFFFFFD2393F#64) State.reset) State.now = some 0xFFFFFFFFFFD2393F#64 ∧
      refusal (exec (.adv 0xFFFFFFFFFFD23940#64) State.reset) = some .timePremise := by decide

theorem test_reserved :
    refusal (exec .reserved0 ready) = some (.reservedCode 0) ∧
      refusal (exec .reserved7 ready) = some (.reservedCode 7) ∧
      refusal (exec .reservedD ready) = some (.reservedCode 13) ∧
      refusal (exec .reservedE ready) = some (.reservedCode 14) := by decide

/-- V14's header: decoded, and nothing of the session on the result port. -/
theorem test_echoRequest :
    after (exec (.echoRequest 0xE5C9 0x1234 2) awaiting) State.result =
      some (some (.icmp (.ok ⟨8, 0, 0xE5C9, 0x1234, 2⟩))) := by decide

/-- X11's header: the same answer while the session awaits it and before the session. -/
theorem test_echoReply :
    after (exec (.echoReply 5 0 0x1234 2) awaiting) State.result =
        some (some (.icmp (.ok ⟨0, 5, 0, 0x1234, 2⟩))) ∧
      after (exec (.echoReply 5 0 0x1234 2) ready) State.result =
        some (some (.icmp (.ok ⟨0, 5, 0, 0x1234, 2⟩))) := by decide

theorem test_ipv4Header :
    after (exec (.ipv4Header ⟨5, 0, 28, 0, 1, 0, 1, 1, 255, 1, 0, 0, 0xFFFFFFFF⟩ []) ready)
        State.result =
      some (some (.ip4 (.ok ⟨4, 5, 0, 28, 0, 0, 1, 1, 255, 1, 0, 0, 0xFFFFFFFF, [], 20⟩))) := by
  decide

/-- R135: a header or view is gone after the next operation, whatever it is, and after a step that waits. -/
theorem test_result_does_not_survive :
    let shown : State := setResult (.header [0x08]) racing
    [Instr.reset, .adv 5, .tmo, .rx reply, .csum 255 255 0 0 []].map
        (fun i => after (exec i shown) State.result) =
        [some none, some none, some none, some none, some (some (.checksum 0))] ∧
      after (step shown) id = some racing := by decide

/-- The saturation of R28. -/
theorem test_satInc : satInc 0xFFFF = 0xFFFF ∧ satInc 1 = 2 := by decide

/-- R62, R63: a half written and read back at an odd offset. -/
theorem test_memory :
    memRead2 (memWrite2 3 0xABCD []) 3 = some 0xABCD ∧
      readByte (memWrite2 3 0xABCD []) 3 = some 0xAB ∧ memRead1 (memWrite2 3 0xABCD []) 5 = none ∧
      memWrite2 3 0xABCD [(2, 1), (4, 2)] = [(2, 1), (3, 0xAB), (4, 0xCD)] := by decide

/-! ### Witnesses: for each statement with hypotheses, values that meet all of them -/

theorem witness_inv_reset : Inv State.reset := by
  constructor <;> decide

theorem witness_inv_ready : Inv ready := by
  constructor <;> decide

theorem witness_inv_awaiting : Inv awaiting := by
  constructor <;> decide

theorem witness_inv_racing : Inv racing := by
  constructor <;> decide

theorem witness_inv_answered : Inv answered := by
  constructor <;> decide

theorem witness_inv_resending : Inv resending := by
  constructor <;> decide

theorem witness_inv_finishing : Inv finishing := by
  constructor <;> decide

theorem witness_inv_ended : Inv ended := by
  constructor <;> decide

/-- The registers without a value in a state, given other values. -/
def stray (s : State) : State :=
  { s with
    lastSendTimestamp := 6#64, tmrDeadline := 7#64, tmrKind := .resend, rxLen := 4#16,
    rxbuf := [(0, 0x45#8)], txbuf := [(9, 0x61#8)] }

/-- The end of program P5: no request, no timestamp. -/
def endedAtOnce : State := { ready with maxCount := 0#16, fsm := .done }

/-- Two states that agree where R43 gives a value: before CFG, configured before START, in DONE with no request ever sent, and between receives; with an instruction that runs and one that is refused. -/
theorem witness_UnwrittenRegistersAreNeverRead :
    (Inv State.reset ∧ AgreeWhereValued State.reset
        { stray State.reset with
          identifier := 1, maxCount := 2, payloadSize := 3, targetEndpoint := 5 } ∧
      exec .start State.reset = .refused .notEnabled ∧
      exec (.adv 5) State.reset = .next { State.reset with now := 5 }) ∧
    (Inv ready ∧ AgreeWhereValued ready (stray ready) ∧
      after (exec .start ready) State.fsm = some .awaitingReply) ∧
    (Inv endedAtOnce ∧ AgreeWhereValued endedAtOnce (stray endedAtOnce) ∧
      exec .rsnd endedAtOnce = .refused .notEnabled) ∧
    (Inv awaiting ∧ AgreeWhereValued awaiting { awaiting with rxLen := 4, rxbuf := [(0, 0x45)] } ∧
      after (exec (.rx reply) awaiting) State.replyCount = some 1) := by
  refine ⟨⟨witness_inv_reset, ?_, rfl, rfl⟩, ⟨witness_inv_ready, ?_, by decide⟩, ⟨?_, ?_, rfl⟩,
    witness_inv_awaiting, ?_, by decide⟩ <;> constructor <;> decide

/-- The first and the last byte that is no event code. -/
theorem witness_EventCodesSelectTheirOperations :
    16 ≤ (0x10 : Byte).toNat ∧ 16 ≤ (0xFF : Byte).toNat ∧ ¬ 16 ≤ (0x0F : Byte).toNat := by decide

/-- `ihl` 4 and 5, and one option byte beside what 5 declares. -/
theorem witness_DecodeOfEncodeIsTheInstruction :
    (Instr.ipv4Header (headerOf 5) []).wellFormed = true ∧ (headerOf 4).ihl.toNat < 5 ∧
      5 ≤ (headerOf 5).ihl.toNat ∧ 20 + ([] : List Byte).length = 4 * (headerOf 5).ihl.toNat ∧
      20 + [0x01#8].length ≠ 4 * (headerOf 5).ihl.toNat := by decide

/-- One first byte for each clause at the values where they meet, on words of 20, 21, 24 and 60 bytes. -/
theorem witness_Ipv4WordsDecodeExactlyWhenWhole :
    19 ≤ (List.replicate 19 0#8).length ∧ (0x55 : Byte).toNat / 16 ≠ 4 ∧
      ((0x44 : Byte).toNat / 16 = 4 ∧ (0x44 : Byte).toNat % 16 < 5) ∧
      (5 ≤ (0x45 : Byte).toNat % 16 ∧ 1 + 20 ≠ 4 * ((0x45 : Byte).toNat % 16)) ∧
      (5 ≤ (0x45 : Byte).toNat % 16 ∧ 1 + 19 = 4 * ((0x45 : Byte).toNat % 16)) ∧
      1 + 23 = 4 * ((0x46 : Byte).toNat % 16) ∧ 1 + 59 = 4 * ((0x4F : Byte).toNat % 16) := by
  decide

theorem witness_EncodeOfDecodeIsTheWord :
    decode ⟨[0x06#8], ports⟩ = .ok (.adv 10000#64) ∧
      decode ⟨reply.drop 20, ports⟩ = .ok (.echoReply 0 0xEDC9 0x1234 2) := ⟨rfl, rfl⟩

theorem witness_StepRunsTheDecodedInstruction :
    (∃ s iss rest, s.issues = iss :: rest ∧ decode iss = .ok .start ∧
      after (step s) State.fsm = some .awaitingReply) ∧
    (∃ s iss rest, s.issues = iss :: rest ∧ decode iss = .error .eventNibble ∧
      refusal (step s) = some (.undecodable .eventNibble)) ∧
    State.reset.issues = [] :=
  ⟨⟨ready.withFetchWord 8 0x2, _, _, rfl, rfl, by decide⟩,
    ⟨ready.withFetchWord 8 0x12, _, _, rfl, rfl, by decide⟩, rfl⟩

/-- For each operation with an enabling condition, a state where it holds and one where it does not. -/
theorem witness_OperationsRunExactlyWhenEnabled :
    (Enabled (.cfg 1 2 3 4) State.reset ∧ ¬ Enabled (.cfg 1 2 3 4) awaiting) ∧
    (Enabled .start ready ∧ ¬ Enabled .start State.reset ∧ ¬ Enabled .start awaiting) ∧
    (Enabled (.rx reply) awaiting ∧ ¬ Enabled (.rx reply) ready) ∧
    (Enabled .tmo racing ∧ Enabled .tmo answered ∧ ¬ Enabled .tmo awaiting ∧
      ¬ Enabled .tmo resending) ∧
    (Enabled .rsnd resending ∧ ¬ Enabled .rsnd racing) ∧
    (Enabled (.adv 0xFFFFFFFFFFD2393F#64) State.reset ∧
      ¬ Enabled (.adv 0xFFFFFFFFFFD23940#64) State.reset) ∧
    (Enabled (.csumchk reply) ready ∧ ¬ Enabled (.csumchk [1, 2, 3, 4, 5, 6, 7]) ready) := by
  unfold Enabled
  decide

/-- The bound on a byte operand lies between 65535 and 65536. -/
theorem witness_byte_operand_limits (x : State) :
    Enabled (.csum 8 0 0 0 (List.replicate 65535 0#8)) x ∧
    ¬ Enabled (.csum 8 0 0 0 (List.replicate 65536 0#8)) x ∧
    Enabled (.icmpenc 8 0 0 0 (List.replicate 65535 0#8)) x ∧
    ¬ Enabled (.icmpenc 8 0 0 0 (List.replicate 65536 0#8)) x ∧
    Enabled (.icmpdec (List.replicate 65535 0#8)) x ∧
    ¬ Enabled (.icmpdec (List.replicate 65536 0#8)) x ∧
    Enabled (.ip4dec (List.replicate 65535 0#8)) x ∧
    ¬ Enabled (.ip4dec (List.replicate 65536 0#8)) x ∧
    Enabled (.csumchk (List.replicate 65543 0#8)) x ∧
    ¬ Enabled (.csumchk (List.replicate 65544 0#8)) x := by
  simp only [Enabled, List.length_replicate]
  decide

theorem witness_WordsPairBytesAndFoldAddsTheHalves :
    ([0xAB, 0xCD, 0x61] : List Byte)[2 * 0]? = some 0xAB ∧
      ([0xAB, 0xCD, 0x61] : List Byte)[2 * 0 + 1]? = some 0xCD ∧
      ([0xAB, 0xCD, 0x61] : List Byte)[2 * 1]? = some 0x61 ∧
      ([0xAB, 0xCD, 0x61] : List Byte).length = 2 * 1 + 1 ∧
      words [0xAB, 0xCD, 0x61] = [0xABCD, 0x6100] := by decide

/-- Payloads at and beyond the bound of R112: for CsumIsTheComplementOfTheFoldedSum, ChecksumAccumulatorNeverWraps, TransmittedMessageFoldsToAllOnes, IcmpencBuildsTheHeader, and the last clause of WireFormatsAreDecoded. -/
theorem witness_payload_limits :
    ([] : List Byte).length ≤ 65535 ∧ (List.replicate 65535 0xFF#8).length ≤ 65535 ∧
      65535 < (List.replicate 65536 0xFF#8).length := by
  simp only [List.length_replicate]
  decide

/-- V17, V11 and the zero sum meet the hypotheses of the clauses on folds. -/
theorem witness_TwoFoldsAreEnough :
    (fold 0x1FFFF).toNat / 65536 = 1 ∧ (fold (fold 0)).toNat = 0 ∧
      (fold (fold 0x1FFFE)).toNat = 0xFFFF ∧ (0x1FFFE : Word).toNat % 0xFFFF = 0 := by decide

/-- Messages at the bounds of R115: 8 bytes (K5), 7, and 65544. -/
theorem witness_CsumchkRecomputesAndCompares :
    ([] : List Byte).length ≤ 65535 ∧ ([0, 0, 0, 0, 0, 0, 0] : List Byte).length < 8 ∧
      65543 < (List.replicate 65544 0#8).length := by
  simp only [List.length_replicate]
  decide

/-- Buffers of 7, 9 and 65536 bytes. -/
theorem witness_IcmpdecDecodesExactlyEightBytes :
    (reply.take 7).length ≤ 65535 ∧ (reply.take 7).length ≠ 8 ∧ (reply.take 9).length ≤ 65535 ∧
      (reply.take 9).length ≠ 8 ∧ 65535 < (List.replicate 65536 0#8).length := by
  rw [List.length_replicate]
  decide

/-- One first byte for each clause, at the values where they meet: 0x65, 0x44, 0x45, 0x46 on 23 and 24 bytes, 0x4F. -/
theorem witness_Ip4decTestsThenReadsTheFields :
    (reply.take 19).length < 20 ∧ 20 + (reply.drop 20).length ≤ 65535 ∧
      (0x65 : Byte).toNat / 16 ≠ 4 ∧
      ((0x44 : Byte).toNat / 16 = 4 ∧ (0x44 : Byte).toNat % 16 < 5) ∧
      (5 ≤ (0x45 : Byte).toNat % 16 ∧ 4 * ((0x45 : Byte).toNat % 16) ≤ 20 + 0) ∧
      (5 ≤ (0x46 : Byte).toNat % 16 ∧ 20 + 3 < 4 * ((0x46 : Byte).toNat % 16)) ∧
      4 * ((0x46 : Byte).toNat % 16) ≤ 20 + 4 ∧ 4 * ((0x4F : Byte).toNat % 16) ≤ 20 + 40 := by
  decide

/-- The views X1 decodes to. -/
def replyIp : Ip4View :=
  { version := 4, ihl := 5, tos := 0, totalLength := 28, identification := 0, df := 0, mf := 0,
    fragmentOffset := 0, ttl := 64, protocol := 1, headerChecksum := 0, source := 0x0A000002,
    destination := 0x0A000001, options := [], headerLengthBytes := 20 }

/-- The ICMP view of X1. -/
def replyIcmp : IcmpView :=
  { type := 0, code := 0, checksum := 0xEDC9, identifier := 0x1234, sequenceNumber := 2 }

theorem witness_DecodedIpv4HeaderIsConsistent : ip4dec reply = .ok replyIp := by decide

theorem witness_Ipv4AcceptanceDependsOnFirstByte :
    let B : List Byte := 0x44 :: List.replicate 19 0
    let B' : List Byte := 0x44 :: List.replicate 19 0xFF
    B.length = B'.length ∧ B[0]? = B'[0]? ∧ ip4dec B = .fail .ip4Ihl := by decide

/-- Reads of 4, 2 and 1 bytes at the last offset each can have, the whole range, and one byte too many; a header of two bytes. -/
theorem witness_BufferAccessesAreBigEndian :
    let B : List Byte := [0x0A, 0x00, 0x00, 0x02]
    (B[0]? = some 0x0A ∧ B[0 + 1]? = some 0x00 ∧ B[0 + 2]? = some 0x00 ∧ B[0 + 3]? = some 0x02) ∧
      (B[2]? = some 0x00 ∧ B[2 + 1]? = some 0x02) ∧ B[3]? = some 0x02 ∧
      0 + 4 ≤ B.length ∧ (0 < 4 ∧ B.length < 1 + 4) ∧ memRead4 (loadBytes 0 B) 0 = some 0x0A000002 ∧
      readRange (loadBytes 0 B) 1 2 = some [0x00, 0x00] ∧ 1 < [0x08#8, 0x00#8].length := by decide

/-- A pending TIMEOUT wait, a RESEND wait, no wait. -/
theorem witness_CancelCompletesTheTimeoutWaitEarly :
    (awaiting.tmrArmed = true ∧ awaiting.tmrKind = .timeout) ∧ resending.tmrKind = .resend ∧
      ended.tmrArmed = false := by decide

theorem witness_CfgLoadsTheConfiguration : ready.fsm = .idle ∧ awaiting.fsm ≠ .idle := by decide

/-- The three clauses of START, `max_count` 0 among them. -/
theorem witness_StartSendsTheFirstRequest :
    (awaiting.fsm ≠ .idle ∧ State.reset.cfgValid = false) ∧
      (ready.fsm = .idle ∧ ready.cfgValid = true ∧
        ({ ready with maxCount := 0 } : State).sentCount = 0) ∧
      ready.sentCount ≠ ready.maxCount := by decide

/-- The three clauses of RSND, at and before its deadline. -/
theorem witness_RsndSendsTheNextRequest :
    ¬ (racing.tmrArmed = true ∧ racing.tmrKind = .resend ∧ racing.tmrDeadline ≤ racing.now) ∧
      (finishing.tmrArmed = true ∧ finishing.tmrKind = .resend ∧
        finishing.tmrDeadline ≤ finishing.now ∧ finishing.sentCount = finishing.maxCount) ∧
      (resending.tmrArmed = true ∧ resending.tmrKind = .resend ∧
        resending.tmrDeadline ≤ resending.now ∧ resending.sentCount ≠ resending.maxCount) := by
  decide

/-- One tick before the deadline. -/
def early : State := { racing with now := 4999999#64 }

/-- TMO at its deadline, after a cancel, and one tick before the deadline. -/
theorem witness_TmoReportsAndArmsTheResendWait :
    (racing.tmrArmed = true ∧ racing.tmrKind = .timeout ∧ racing.tmrDeadline ≤ racing.now) ∧
      (answered.tmrArmed = true ∧ answered.tmrKind = .timeout ∧ answered.tmrForced = true) ∧
      ¬ (early.tmrArmed = true ∧ early.tmrKind = .timeout ∧
        (early.tmrForced = true ∨ early.tmrDeadline ≤ early.now)) := by decide

theorem witness_TimerRaisesExactlyOneEvent :
    (Inv racing ∧ racing.tmrArmed = true ∧ racing.tmrDeadline ≤ racing.now ∧
      racing.tmrKind = .timeout) ∧
    (Inv answered ∧ answered.tmrArmed = true ∧ answered.tmrForced = true ∧
      answered.tmrKind = .timeout) ∧
    (Inv resending ∧ resending.tmrArmed = true ∧ resending.tmrDeadline ≤ resending.now ∧
      resending.tmrKind = .resend) :=
  ⟨⟨witness_inv_racing, by decide⟩, ⟨witness_inv_answered, by decide⟩,
    witness_inv_resending, by decide⟩

/-- X1 is accepted. -/
theorem witness_RxReportsAnAcceptedReply :
    awaiting.rxArmed = true ∧ reply.length ≤ 65535 ∧ Accepts awaiting reply replyIp replyIcmp :=
  ⟨rfl, by decide, by decide, by decide, rfl, rfl, rfl⟩

/-- X6 is not. -/
theorem witness_RxDiscardsEveryOtherDatagram :
    awaiting.rxArmed = true ∧ staleReply.length ≤ 65535 ∧
      ∀ v4 vi, ¬ Accepts awaiting staleReply v4 vi := by
  refine ⟨rfl, by decide, ?_⟩
  rintro v4 vi ⟨h4, hi, -, -, hq⟩
  have e4 : ip4dec staleReply = .ok replyIp := by decide
  rw [e4] at h4
  cases h4
  have ei : icmpdec ((staleReply.drop (4 * replyIp.ihl.toNat)).take 8) =
      .ok { replyIcmp with checksum := 0xEDCA, sequenceNumber := 1 } := by decide
  rw [ei] at hi
  cases hi
  revert hq
  decide

theorem witness_RxIsRefusedWithoutListener :
    ready.rxArmed = false ∧ awaiting.rxArmed = true ∧
      65535 < (List.replicate 65536 0#8).length := by
  rw [List.length_replicate]
  decide

/-- X1 and X11: another code and checksum, both reported. -/
theorem witness_UntestedFieldsDoNotDecide :
    reply.length = replyOtherCode.length ∧ reply[0]? = replyOtherCode[0]? ∧
      (∀ b0 : Byte, reply[0]? = some b0 → ∀ k ∈ [0, 4, 5, 6, 7],
        reply[4 * (b0.toNat % 16) + k]? = replyOtherCode[4 * (b0.toNat % 16) + k]?) ∧
      after (exec (.rx reply) awaiting) (fun t => decide (t.out = awaiting.out)) = some false ∧
      after (exec (.rx replyOtherCode) awaiting) (fun t => decide (t.out = awaiting.out)) =
        some false := by
  refine ⟨rfl, rfl, ?_, by decide, by decide⟩
  intro b0 h
  cases Option.some.inj h
  decide

/-- The two sides of the no-wrap premise, one tick apart. -/
theorem witness_AdvAdvancesTimeAlone :
    State.reset.now.toNat + (0xFFFFFFFFFFD2393F#64).toNat + 3 * 1000000 < 2 ^ 64 ∧
      2 ^ 64 ≤ State.reset.now.toNat + (0xFFFFFFFFFFD23940#64).toNat + 3 * 1000000 := by decide

theorem witness_PureFunctionsTouchNoRegister :
    isPureFunction (.csum 8 0 0x1234 1 []) = true ∧
      exec (.csum 8 0 0x1234 1 []) ready =
        .next { ready with result := some (.checksum 0xE5CA) } := ⟨rfl, rfl⟩

/-- A step that answers, one that does not, and one that waits. -/
theorem witness_ResultsDoNotOutliveTheirOperation :
    (∃ t, step (ready.withFetchWord 64 0x0005EDCA12340001) = .next t ∧
      t.result = some (.icmp (.ok ⟨0, 5, 0xEDCA, 0x1234, 1⟩)) ∧ ready.issues = []) ∧
    (∃ t, step ((setResult (.ok true) racing).withFetchWord 8 0x4) = .next t ∧ t.result = none) ∧
    after (step (setResult (.ok true) ready)) State.result = some none :=
  ⟨⟨_, rfl, by decide, rfl⟩, ⟨_, rfl, rfl⟩, rfl⟩

/-- The clauses of the IPv4 wire format: `ihl` 4, 6 without options, and 5. -/
theorem witness_WireFormatsAreDecoded :
    (4 : BitVec 4).toNat < 5 ∧ (5 ≤ (6 : BitVec 4).toNat ∧ 20 + 0 < 4 * (6 : BitVec 4).toNat) ∧
      (5 ≤ (5 : BitVec 4).toNat ∧ 4 * (5 : BitVec 4).toNat ≤ 20 + 0) := by decide

/-- A step from a state that meets the invariant; it serves every statement over `step`: EveryStepKeepsTheInvariant, OutputIsAppendOnly, TimeNeverDecreases. -/
theorem witness_step_statements :
    Inv (racing.withFetchWord 8 0x4) ∧ ∃ t, step (racing.withFetchWord 8 0x4) = .next t ∧
      t.out = requests ++ [.timeoutNote] := by
  refine ⟨?_, _, rfl, by decide⟩
  constructor <;> decide

theorem witness_RequestsCarryTheNextSequenceNumber :
    Inv ready ∧ (∃ t, exec .start ready = .next t ∧
      t.out = ready.out ++ [.tx 0x0A000002 (icmpenc 8 0 0x1234 1 [])]) ∧
    Inv resending ∧ (∃ t, exec .rsnd resending = .next t ∧
      t.out = resending.out ++ [.tx 0x0A000002 (icmpenc 8 0 0x1234 3 [])]) :=
  ⟨witness_inv_ready, ⟨_, rfl, by decide⟩, witness_inv_resending, _, rfl, by decide⟩

theorem witness_ConfigurationIsFrozenInASession :
    racing.fsm ≠ .idle ∧ Instr.tmo ≠ .reset ∧ ∃ t, exec .tmo racing = .next t :=
  ⟨by decide, by decide, _, rfl⟩

theorem witness_DoneIsTerminal :
    Inv ended ∧ ended.fsm = .done ∧ Instr.adv 5 ≠ .reset ∧ ∃ t, exec (.adv 5) ended = .next t :=
  ⟨witness_inv_ended, rfl, by decide, _, rfl⟩

/-- A state for each row of the transition table; the runs serve RecordsComeFromTheirOperations as well. -/
theorem witness_ControlMovesAsTheTransitionTable :
    (Inv awaiting ∧ ∃ t, exec .reset awaiting = .next t) ∧
    (Inv ready ∧ (∃ t, exec (.cfg 1 2 3 4) ready = .next t) ∧ ∃ t, exec .start ready = .next t) ∧
    (Inv racing ∧ (∃ t, exec .tmo racing = .next t) ∧
      (∃ t, exec (.rx reply) racing = .next t) ∧ ∃ t, exec (.rx staleReply) racing = .next t) ∧
    (Inv resending ∧ ∃ t, exec .rsnd resending = .next t) ∧
    Inv finishing ∧ ∃ t, exec .rsnd finishing = .next t :=
  ⟨⟨witness_inv_awaiting, _, rfl⟩, ⟨witness_inv_ready, ⟨_, rfl⟩, _, rfl⟩,
    ⟨witness_inv_racing, ⟨_, rfl⟩, ⟨_, rfl⟩, _, rfl⟩, ⟨witness_inv_resending, _, rfl⟩,
    witness_inv_finishing, _, rfl⟩

/-- A timer event, the last one, START, a short run with a datagram in it, and a wait still to come. -/
theorem witness_TimerEventsRunOut :
    (Inv racing ∧ isTimerEvent .tmo = true ∧
      after (exec .tmo racing) timerEventsLeft = some 3 ∧ timerEventsLeft racing = 4) ∧
    (Inv finishing ∧ isTimerEvent .rsnd = true ∧
      after (exec .rsnd finishing) (fun t => (timerEventsLeft t, t.fsm)) = some (0, .done)) ∧
    (Inv ready ∧ after (exec .start ready) timerEventsLeft = some 6) ∧
    (Inv finishing ∧ finishing.fsm = .awaitingReply ∧
      .reset ∉ [Instr.rx staleReply, .adv 5, .rsnd] ∧
      after (execAll [.rx staleReply, .adv 5, .rsnd] finishing) State.fsm = some .done) ∧
    (Inv awaiting ∧ awaiting.fsm = .awaitingReply ∧
      awaiting.tmrDeadline.toNat + 3 * 1000000 < 2 ^ 64) :=
  ⟨⟨witness_inv_racing, rfl, by decide⟩, ⟨witness_inv_finishing, rfl, by decide⟩,
    ⟨witness_inv_ready, by decide⟩, ⟨witness_inv_finishing, rfl, by decide, by decide⟩,
    witness_inv_awaiting, by decide⟩

/-- Program P6, moved to this state. -/
theorem witness_RaceOrdersDifferOnlyInTheNotification :
    Inv racing ∧ racing.rxArmed = true ∧ racing.tmrKind = .timeout ∧ racing.replyCount = 0 ∧
      racing.tmrDeadline ≤ racing.now ∧ reply.length ≤ 65535 ∧
      Accepts racing reply replyIp replyIcmp :=
  ⟨witness_inv_racing, rfl, rfl, rfl, by decide, by decide, by decide, by decide, rfl, rfl, rfl⟩

/-- An unanswered request before its deadline, and an answered one. -/
theorem witness_IdealScheduleKeepsTheCadence :
    (Inv awaiting ∧ awaiting.tmrArmed = true ∧ awaiting.tmrKind = .timeout ∧
      awaiting.sentCount ≠ awaiting.maxCount ∧ awaiting.tmrForced = false ∧
      awaiting.replyCount = 0 ∧ awaiting.now ≤ awaiting.tmrDeadline ∧
      awaiting.lastSendTimestamp.toNat + 6 * 1000000 < 2 ^ 64) ∧
    (Inv answered ∧ answered.tmrArmed = true ∧ answered.tmrKind = .timeout ∧
      answered.sentCount ≠ answered.maxCount ∧ answered.tmrForced = true ∧
      answered.now.toNat + 4 * 1000000 < 2 ^ 64) :=
  ⟨⟨witness_inv_awaiting, by decide⟩, witness_inv_answered, by decide⟩

/-- The clauses of the pseudo-operations: a forced wait, a running one, none; a time ahead and a time passed. -/
theorem witness_PseudoOperationsExpand :
    (answered.tmrArmed = true ∧ answered.tmrForced = true) ∧
      (awaiting.tmrArmed = true ∧ awaiting.tmrForced = false) ∧ ended.tmrArmed = false ∧
      awaiting.now ≤ 3100000 ∧ (3099999 : Time) < awaiting.now := by decide

end Sys2Proof.Tests
end

section
/-! Scope of the block: no step faults (R9, R73), and the pure functions depend on no register (R8, R89). -/

namespace Sys2Proof.Proofs

open Sys2Proof Sys2Proof.Machine Sys2Proof.Laws

/-! ### The three ways a step goes -/

/-- With nothing issued the block waits (R261, log 8). -/
theorem step_of_no_issue {s : State} (h : s.issues = []) : step s = .next (clearResult s) := by
  simp only [step, h]

/-- A selecting word that is no instruction is refused. -/
theorem step_of_decode_error {s : State} {iss : Issue} {rest : List Issue} {e : DecodeError}
    (h : s.issues = iss :: rest) (hd : decode iss = .error e) :
    step s = .refused (.undecodable e) := by
  simp only [step, h, hd]

/-- A decoded issue is run on the state without it (R69, R170). -/
theorem step_of_decode_ok {s : State} {iss : Issue} {rest : List Issue} {i : Instr}
    (h : s.issues = iss :: rest) (hd : decode iss = .ok i) :
    step s = exec i { s with issues := rest } := by
  simp only [step, h, hd]

/-! ### Instructions that answer on the result port -/

/-- An operation that has one answer in every state, on the result port alone, or is refused in every state as its
operands are outside their domain (R8, R190). -/
def AnswersUniformly (op : State → Host.Outcome State Fault Refusal) : Prop :=
  (∃ r, ∀ s, op s = .next (setResult r s)) ∨ ∀ s, op s = .refused .operandDomain

/-- A guard on the operands alone is open in every state or in none. -/
theorem guarded_answersUniformly (b : Bool) (r : Result) :
    AnswersUniformly fun s => if b then .next (setResult r s) else .refused .operandDomain := by
  cases b
  · exact .inr fun _ => rfl
  · exact .inl ⟨r, fun _ => rfl⟩

/-- The pure functions and the wire formats look at their operands alone. -/
theorem exec_answersUniformly {i : Instr} (hi : answers i = true) : AnswersUniformly (exec i) := by
  cases i <;> simp only [answers, reduceCtorEq] at hi
  case echoRequest => exact .inl ⟨_, fun _ => rfl⟩
  case echoReply => exact .inl ⟨_, fun _ => rfl⟩
  all_goals exact guarded_answersUniformly _ _

theorem answers_of_isPureFunction {i : Instr} (hi : isPureFunction i = true) :
    answers i = true := by
  cases i <;> simp only [isPureFunction, reduceCtorEq] at hi <;> rfl

/-- Settles O39: the one answer a pure function has is the same from both states. -/
theorem pureFunctionsTouchNoRegister : Obligations.PureFunctionsTouchNoRegister := by
  intro i s s' t hi h
  obtain ⟨r, hr⟩ | hr := exec_answersUniformly (answers_of_isPureFunction hi)
  · obtain rfl : setResult r s = t := Host.Outcome.next.inj ((hr s).symm.trans h)
    exact ⟨rfl, setResult r s', hr s', rfl⟩
  · cases (hr s).symm.trans h

/-! ### No operation faults -/

/-- An operation behind a refusing guard faults only if its body does, with the guard open. -/
theorem guarded_ne_fault {b : Bool} {o : Host.Outcome State Fault Refusal} {r : Refusal}
    {f : Fault} (h : b = true → o ≠ .fault f) : (if b then o else .refused r) ≠ .fault f := by
  cases b
  · exact nofun
  · exact h rfl

/-- The transmit port reads only bytes that `send_request` has stored (R68, R74). -/
theorem sendRequest_ne_fault (s : State) (f : Fault) : sendRequest s ≠ .fault f := by
  obtain ⟨t, ht⟩ := sendRequest_next s
  rw [ht]
  exact nofun

/-- The receiver reads only bytes that the environment has delivered (R72, R73). -/
theorem handleReceive_deliver_ne_fault {d : List Byte} (h : d.length ≤ Config.rxMax) (s : State)
    (f : Fault) : handleReceive (deliver d s) ≠ .fault f := by
  rw [handleReceive_deliver h]
  cases screen s d <;> exact nofun

/-- No instruction faults, in any state: the two readers of a buffer are `send_request` and `handle_receive` (R9). -/
theorem exec_ne_fault (i : Instr) (s : State) (f : Fault) : exec i s ≠ .fault f := by
  cases i
  case start => exact guarded_ne_fault fun _ => sendRequest_ne_fault _ f
  case rsnd => exact guarded_ne_fault fun _ => sendRequest_ne_fault _ f
  case rx =>
    exact guarded_ne_fault fun _ => guarded_ne_fault fun hlen =>
      handleReceive_deliver_ne_fault (lengthAtMost_iff.mp hlen) _ f
  case reset | reserved0 | reserved7 | reservedD | reservedE | echoRequest | echoReply =>
    exact nofun
  all_goals exact guarded_ne_fault fun _ => nofun

/-- Settles O13: a step waits, refuses an undecodable word, or runs an instruction, and no instruction faults. -/
theorem noStepFaults : Obligations.NoStepFaults := by
  intro s f
  cases hs : s.issues with
  | nil => rw [step_of_no_issue hs]; exact nofun
  | cons iss rest =>
    cases hd : decode iss with
    | error e => rw [step_of_decode_error hs hd]; exact nofun
    | ok i => rw [step_of_decode_ok hs hd]; exact exec_ne_fault i _ f

end Sys2Proof.Proofs
end

section
/-! The invariant (R42): the reset state meets it, and every step keeps it. -/

namespace Sys2Proof.Proofs

open Sys2Proof Sys2Proof.Machine Sys2Proof.Laws

/-! ### Reset -/

/-- Settles O1: the reset state is written out with these values. -/
theorem resetStateHoldsTheGivenValues : Obligations.ResetStateHoldsTheGivenValues :=
  ⟨rfl, rfl, rfl, rfl, rfl, rfl, rfl, rfl⟩

/-- The reset values that the spec gives, with empty buffers and time within the premise, meet the invariant (R43, R260):
at reset and after RESET alike, as the registers that may hold a free value do not matter. -/
theorem inv_of_reset_values {s : State} (hfsm : s.fsm = .idle) (hsent : s.sentCount = 0#16)
    (hreply : s.replyCount = 0#16) (hrx : s.rxArmed = false) (htmr : s.tmrArmed = false)
    (hforced : s.tmrForced = false) (htime : timePremise s.now.toNat = true)
    (hrxbuf : s.rxbuf = []) (htxbuf : s.txbuf = []) : Inv s where
  sent_le_max hn := absurd hfsm hn
  awaiting_armed hw := by cases hfsm.symm.trans hw
  sent_before_now hw := by cases hfsm.symm.trans hw
  forced_timeout hf := by cases hforced.symm.trans hf
  listening_awaiting hl := by cases hrx.symm.trans hl
  deaf_answered hw := by cases hfsm.symm.trans hw
  done_quiet hd := by cases hfsm.symm.trans hd
  idle_quiet _ := ⟨htmr, hrx, hsent, hreply⟩
  never_sending hn := by cases hfsm.symm.trans hn
  timeout_deadline ha := by cases htmr.symm.trans ha
  sequence_numbers := by rw [hsent]; exact List.nil_suffix
  configured hn := absurd hfsm hn
  time_premise := htime
  rxbuf_wf := by rw [hrxbuf]; rfl
  txbuf_wf := by rw [htxbuf]; rfl

/-- Settles O2: the reset state is quiet at time 0. -/
theorem resetStateMeetsTheInvariant : Obligations.ResetStateMeetsTheInvariant :=
  inv_of_reset_values rfl rfl rfl rfl rfl rfl (timePremise_iff.mpr (by decide)) rfl rfl

/-! ### What the invariant says of a wait and of the listener -/

/-- A wait runs in `AWAITING_REPLY` only (R42 items 6 to 8). -/
theorem awaiting_of_tmrArmed {s : State} (h : Inv s) (ha : s.tmrArmed = true) :
    s.fsm = .awaitingReply := by
  cases hf : s.fsm with
  | awaitingReply => rfl
  | sending => exact absurd hf h.never_sending
  | idle =>
    obtain ⟨hquiet, -⟩ := h.idle_quiet hf
    cases ha.symm.trans hquiet
  | done =>
    obtain ⟨hquiet, -⟩ := h.done_quiet hf
    cases ha.symm.trans hquiet

/-- In `AWAITING_REPLY` a configuration is loaded (R25, R264). -/
theorem cfgValid_of_awaiting {s : State} (h : Inv s) (hw : s.fsm = .awaitingReply) :
    s.cfgValid = true :=
  h.configured (by rw [hw]; decide)

/-- Only an armed wait can have been completed early (R42 item 3). -/
theorem not_tmrForced_of_not_tmrArmed {s : State} (h : Inv s) (ha : s.tmrArmed = false) :
    s.tmrForced = false := by
  rw [Bool.eq_false_iff]
  intro hforced
  obtain ⟨harmed, -⟩ := h.forced_timeout hforced
  cases ha.symm.trans harmed

/-- With a request left the listener is on in `AWAITING_REPLY` (R42 item 5). -/
theorem rxArmed_of_requests_left {s : State} (h : Inv s) (hw : s.fsm = .awaitingReply)
    (hne : s.sentCount ≠ s.maxCount) : s.rxArmed = true := by
  cases hr : s.rxArmed with
  | true => rfl
  | false => exact absurd (h.deaf_answered hw hr).1 hne

/-! ### The sequence numbers on the output stream (R42 item 10) -/

@[simp] theorem txSequences_append_timeoutNote (out : List Record) :
    txSequences (out ++ [.timeoutNote]) = txSequences out := by
  simp [txSequences, txSequence]

@[simp] theorem txSequences_append_reply (out : List Record) (n : Half) (src : Word) (q : Half)
    (ttl : Byte) (rtt : Time) :
    txSequences (out ++ [.reply n src q ttl rtt]) = txSequences out := by
  simp [txSequences, txSequence]

/-- A transmitted message carries the sequence number that its header was built with. -/
theorem txSequence_tx_icmpenc (dst : Word) (t c : Byte) (i q : Half) (p payload : List Byte) :
    txSequence (.tx dst (icmpenc t c i q p ++ payload)) = some q := by
  simp [txSequence, icmpenc, icmpHeaderBytes, icmpdec]

@[simp] theorem txSequences_append_tx_icmpenc (out : List Record) (dst : Word) (t c : Byte)
    (i q : Half) (p payload : List Byte) :
    txSequences (out ++ [.tx dst (icmpenc t c i q p ++ payload)]) =
      txSequences out ++ [q.toNat] := by
  simp [txSequences, txSequence_tx_icmpenc]

/-- The list 1, 2, ..., `n` at the end of a stream grows by its next number. -/
theorem range'_suffix_append_succ {n : Nat} {l : List Nat} (h : List.range' 1 n <:+ l) :
    List.range' 1 (n + 1) <:+ l ++ [n + 1] := by
  obtain ⟨pre, rfl⟩ := h
  exact ⟨pre, by rw [List.range'_1_concat, List.append_assoc, Nat.add_comm 1 n]⟩

/-! ### Sending a request keeps the invariant -/

/-- What START and RSND hand to `send_request` (R172 to R174): a loaded session, no wait, and the listener on unless all
requests are sent. -/
structure ReadyToSend (s : State) : Prop where
  sent_le_max : s.sentCount ≤ s.maxCount
  no_wait : s.tmrArmed = false
  not_forced : s.tmrForced = false
  listening : s.sentCount ≠ s.maxCount → s.rxArmed = true
  sequence_numbers : List.range' 1 s.sentCount.toNat <:+ txSequences s.out
  configured : s.cfgValid = true
  time_premise : timePremise s.now.toNat = true
  rxbuf_wf : Memory.wf s.rxbuf = true
  txbuf_wf : Memory.wf s.txbuf = true

theorem readyToSend_of_start {s : State} (h : Inv s) (hidle : s.fsm = .idle)
    (hcfg : s.cfgValid = true) : ReadyToSend { clearResult s with rxArmed := true } := by
  obtain ⟨hno, -, hsent, -⟩ := h.idle_quiet hidle
  exact
    { sent_le_max := by
        show s.sentCount ≤ s.maxCount
        bv_omega
      no_wait := hno
      not_forced := not_tmrForced_of_not_tmrArmed (s := s) h hno
      listening := fun _ => rfl
      sequence_numbers := h.sequence_numbers
      configured := hcfg
      time_premise := h.time_premise
      rxbuf_wf := h.rxbuf_wf
      txbuf_wf := h.txbuf_wf }

theorem readyToSend_of_rsnd {s : State} (h : Inv s) (hw : s.fsm = .awaitingReply) :
    ReadyToSend (consumeWait (clearResult s)) where
  sent_le_max := h.sent_le_max (by rw [hw]; decide)
  no_wait := rfl
  not_forced := rfl
  listening := rxArmed_of_requests_left (s := s) h hw
  sequence_numbers := h.sequence_numbers
  configured := cfgValid_of_awaiting (s := s) h hw
  time_premise := h.time_premise
  rxbuf_wf := h.rxbuf_wf
  txbuf_wf := h.txbuf_wf

/-- With a request left the counter does not wrap (R27). -/
theorem sentCount_succ_no_wrap {sent max : Half} (hle : sent ≤ max) (hne : sent ≠ max) :
    (sent + 1#16).toNat = sent.toNat + 1 ∧ sent + 1#16 ≤ max := by
  constructor <;> bv_omega

/-- `send_request` starts the next wait or ends the session, and either way the invariant holds (R173). -/
theorem sendRequest_inv {s t : State} (h : ReadyToSend s) (hs : sendRequest s = .next t) :
    Inv t := by
  by_cases hmax : s.sentCount = s.maxCount
  · rw [sendRequest_finished hmax] at hs
    obtain rfl := Host.Outcome.next.inj hs
    exact
      { sent_le_max := fun _ => h.sent_le_max
        awaiting_armed := nofun
        sent_before_now := nofun
        forced_timeout := fun hf => by cases h.not_forced.symm.trans hf
        listening_awaiting := nofun
        deaf_answered := nofun
        done_quiet := fun _ => ⟨h.no_wait, rfl, h.not_forced, hmax⟩
        idle_quiet := nofun
        never_sending := nofun
        timeout_deadline := fun ha => by cases h.no_wait.symm.trans ha
        sequence_numbers := h.sequence_numbers
        configured := fun _ => h.configured
        time_premise := h.time_premise
        rxbuf_wf := h.rxbuf_wf
        txbuf_wf := h.txbuf_wf }
  · rw [sendRequest_transmits hmax] at hs
    obtain rfl := Host.Outcome.next.inj hs
    obtain ⟨hsucc, hle⟩ := sentCount_succ_no_wrap h.sent_le_max hmax
    have hlisten := h.listening hmax
    exact
      { sent_le_max := fun _ => hle
        awaiting_armed := fun _ => ⟨rfl, by rw [hsucc]; exact Nat.le_add_left 1 _⟩
        sent_before_now := fun _ => BitVec.le_refl _
        forced_timeout := nofun
        listening_awaiting := fun _ => rfl
        deaf_answered := fun _ hdeaf => by cases hlisten.symm.trans hdeaf
        done_quiet := nofun
        idle_quiet := nofun
        never_sending := nofun
        timeout_deadline := fun _ _ => rfl
        sequence_numbers := by
          rw [txSequences_append_tx_icmpenc, hsucc]
          exact range'_suffix_append_succ h.sequence_numbers
        configured := fun _ => h.configured
        time_premise := h.time_premise
        rxbuf_wf := h.rxbuf_wf
        txbuf_wf := rfl }

/-! ### The other instructions keep the invariant -/

/-- The result port and the list of issues are not in the invariant. -/
theorem inv_of_result_issues {s : State} (h : Inv s) (r : Option Result) (is : List Issue) :
    Inv { s with result := r, issues := is } := { h with }

/-- CFG loads registers that bind nothing before START (R171). -/
theorem cfg_inv {s : State} (h : Inv s) (hidle : s.fsm = .idle) (id max size : Half)
    (dst : Word) :
    Inv { s with
      identifier := id, maxCount := max, payloadSize := size, targetEndpoint := dst,
      cfgValid := true, result := none } :=
  { h with
    sent_le_max := fun hn => absurd hidle hn
    deaf_answered := fun hw => by cases hidle.symm.trans hw
    done_quiet := fun hd => by cases hidle.symm.trans hd
    configured := fun _ => rfl }

/-- The timeout handler turns the wait into a RESEND wait (R175). -/
theorem tmo_inv {s : State} (h : Inv s) (ha : s.tmrArmed = true) (deadline : Time) :
    Inv { s with
      tmrArmed := true, tmrKind := .resend, tmrDeadline := deadline, tmrForced := false,
      result := none,
      out := if s.replyCount = 0#16 then s.out ++ [.timeoutNote] else s.out } :=
  have hw := awaiting_of_tmrArmed h ha
  { h with
    awaiting_armed := fun hw => ⟨rfl, (h.awaiting_armed hw).2⟩
    forced_timeout := nofun
    done_quiet := fun hd => by cases hw.symm.trans hd
    idle_quiet := fun hi => by cases hw.symm.trans hi
    timeout_deadline := nofun
    sequence_numbers := by
      simp only [apply_ite txSequences, txSequences_append_timeoutNote, ite_self]
      exact h.sequence_numbers }

/-- Time moves on without a wrap, so the last send stays in the past (R33, R181). -/
theorem adv_inv {s : State} (h : Inv s) {d : Time}
    (hd : s.now.toNat + d.toNat + 3 * 1000000 < 2 ^ 64) :
    Inv { s with now := s.now + d, result := none } :=
  have hnow : (s.now + d).toNat = s.now.toNat + d.toNat := by bv_omega
  { h with
    sent_before_now := fun hw => by
      have hle := h.sent_before_now hw
      show s.lastSendTimestamp ≤ s.now + d
      bv_omega
    time_premise := timePremise_iff.mpr (by rw [hnow]; exact hd) }

/-- A discarded datagram leaves the listener on (R221, R222). -/
theorem rxDropped_inv {s : State} (h : Inv s) (hrx : s.rxArmed = true) (len : Half) :
    Inv { s with rxArmed := true, rxbuf := [], rxLen := len, result := none } :=
  have hw := h.listening_awaiting hrx
  { h with
    listening_awaiting := fun _ => hw
    deaf_answered := nofun
    done_quiet := fun hd => by cases hw.symm.trans hd
    idle_quiet := fun hi => by cases hw.symm.trans hi
    rxbuf_wf := rfl }

/-- An accepted reply may complete a TIMEOUT wait, and turns the listener off after the last request only (R178). -/
theorem rxAccepted_inv {s : State} (h : Inv s) (hrx : s.rxArmed = true) (len n : Half)
    (src : Word) (q : Half) (ttl : Byte) (rtt : Time) :
    Inv { s with
      tmrForced := s.tmrForced ||
        (decide (s.replyCount = 0#16) && s.tmrArmed && decide (s.tmrKind = .timeout))
      replyCount := satInc s.replyCount
      out := s.out ++ [.reply n src q ttl rtt]
      rxArmed := !decide (s.sentCount = s.maxCount)
      rxbuf := []
      rxLen := len
      result := none } :=
  have hw := h.listening_awaiting hrx
  { h with
    forced_timeout := fun hf => by
      have hwait : s.tmrArmed = true ∧ s.tmrKind = .timeout := by
        simp only [Bool.or_eq_true, Bool.and_eq_true, decide_eq_true_eq] at hf
        obtain hf | ⟨⟨-, ha⟩, hk⟩ := hf
        · obtain ⟨ha, hk, -⟩ := h.forced_timeout hf
          exact ⟨ha, hk⟩
        · exact ⟨ha, hk⟩
      exact ⟨hwait.1, hwait.2, satInc_pos s.replyCount⟩
    listening_awaiting := fun _ => hw
    deaf_answered := fun _ hdeaf => ⟨by simpa using hdeaf, satInc_pos s.replyCount⟩
    done_quiet := fun hd => by cases hw.symm.trans hd
    idle_quiet := fun hi => by cases hw.symm.trans hi
    sequence_numbers := by
      rw [txSequences_append_reply]
      exact h.sequence_numbers
    rxbuf_wf := rfl }

/-- Every instruction that runs keeps the invariant. -/
theorem exec_inv {i : Instr} {s t : State} (h : Inv s) (hx : exec i s = .next t) : Inv t := by
  cases i
  case cfg =>
    obtain ⟨hidle, rfl⟩ := execCfg_next_iff.mp hx
    exact cfg_inv h hidle _ _ _ _
  case start =>
    obtain ⟨⟨hidle, hcfg⟩, hs⟩ := execStart_next_iff.mp hx
    exact sendRequest_inv (readyToSend_of_start h hidle hcfg) hs
  case rx =>
    obtain ⟨⟨hrx, -⟩, ⟨_, -, rfl⟩ | ⟨_, _, -, rfl⟩⟩ := execRx_next_iff.mp hx
    · exact rxDropped_inv h hrx _
    · exact rxAccepted_inv h hrx _ _ _ _ _ _
  case tmo =>
    obtain ⟨⟨ha, -⟩, rfl⟩ := execTmo_next_iff.mp hx
    exact tmo_inv h ha _
  case rsnd =>
    obtain ⟨⟨ha, -⟩, hs⟩ := execRsnd_next_iff.mp hx
    exact sendRequest_inv (readyToSend_of_rsnd h (awaiting_of_tmrArmed h ha)) hs
  case adv =>
    obtain ⟨hd, rfl⟩ := execAdv_next_iff.mp hx
    exact adv_inv h hd
  case reset =>
    obtain rfl := Host.Outcome.next.inj hx
    exact inv_of_reset_values rfl rfl rfl rfl rfl rfl h.time_premise rfl rfl
  case reserved0 | reserved7 | reservedD | reservedE => cases hx
  all_goals
    obtain ⟨r, rfl⟩ := exec_answer_next rfl hx
    exact inv_of_result_issues h _ _

/-- Settles O42: a step waits, or runs an instruction on the state without its issue. -/
theorem everyStepKeepsTheInvariant : Obligations.EveryStepKeepsTheInvariant := by
  intro s t h hstep
  obtain ⟨-, rfl⟩ | ⟨_, rest, _, -, -, hx⟩ := step_next_cases hstep
  · exact inv_of_result_issues h _ _
  · exact exec_inv (inv_of_result_issues h s.result rest) hx

end Sys2Proof.Proofs
end

section
/-! What a step leaves on the output stream (R35) and of time (R33). -/

namespace Sys2Proof.Proofs

open Sys2Proof Sys2Proof.Machine Sys2Proof.Laws

/-- `send_request` emits at most one record, a TX (R173). -/
theorem sendRequest_out {s t : State} (h : sendRequest s = .next t) :
    t.out = s.out ∨ ∃ dst bytes, t.out = s.out ++ [.tx dst bytes] := by
  by_cases hmax : s.sentCount = s.maxCount
  · rw [sendRequest_finished hmax] at h
    obtain rfl := Host.Outcome.next.inj h
    exact .inl rfl
  · rw [sendRequest_transmits hmax] at h
    obtain rfl := Host.Outcome.next.inj h
    exact .inr ⟨_, _, rfl⟩

/-- Settles O44, instruction by instruction; a send leaves a TX, an accepted datagram a REPLY, TMO its notification. -/
theorem recordsComeFromTheirOperations : Obligations.RecordsComeFromTheirOperations := by
  intro i s t hx
  cases i
  case cfg =>
    obtain ⟨-, rfl⟩ := execCfg_next_iff.mp hx
    exact .inl rfl
  case start =>
    obtain ⟨-, hs⟩ := execStart_next_iff.mp hx
    obtain ho | ⟨dst, bytes, ho⟩ := sendRequest_out hs
    · exact .inl ho
    · exact .inr (.inl ⟨dst, bytes, ho, .inl rfl⟩)
  case rx =>
    obtain ⟨-, ⟨_, -, rfl⟩ | ⟨_, _, -, rfl⟩⟩ := execRx_next_iff.mp hx
    · exact .inl rfl
    · exact .inr (.inr (.inl ⟨_, _, _, _, _, _, rfl, rfl⟩))
  case tmo =>
    obtain ⟨-, rfl⟩ := execTmo_next_iff.mp hx
    by_cases h0 : s.replyCount = 0#16
    · exact .inr (.inr (.inr ⟨if_pos h0, rfl, h0⟩))
    · exact .inl (if_neg h0)
  case rsnd =>
    obtain ⟨-, hs⟩ := execRsnd_next_iff.mp hx
    obtain ho | ⟨dst, bytes, ho⟩ := sendRequest_out hs
    · exact .inl ho
    · exact .inr (.inl ⟨dst, bytes, ho, .inr rfl⟩)
  case adv =>
    obtain ⟨-, rfl⟩ := execAdv_next_iff.mp hx
    exact .inl rfl
  case reset =>
    obtain rfl := Host.Outcome.next.inj hx
    exact .inl rfl
  case reserved0 | reserved7 | reservedD | reservedE => cases hx
  all_goals
    obtain ⟨r, rfl⟩ := exec_answer_next rfl hx
    exact .inl rfl

/-- An instruction only appends to the output stream: at most the one record of its kind. -/
theorem exec_out_prefix {i : Instr} {s t : State} (hx : exec i s = .next t) : s.out <+: t.out := by
  obtain ho | ⟨_, _, ho, -⟩ | ⟨_, _, _, _, _, _, ho, -⟩ | ⟨ho, -⟩ :=
    recordsComeFromTheirOperations i s t hx
  · rw [ho]
  all_goals exact ⟨_, ho.symm⟩

/-- Settles O43: a step that waits leaves the output stream as it is, and an instruction appends to it. -/
theorem outputIsAppendOnly : Obligations.OutputIsAppendOnly := by
  intro s t hstep
  obtain ⟨-, rfl⟩ | ⟨_, rest, _, -, -, hx⟩ := step_next_cases hstep
  · exact List.prefix_refl _
  · exact exec_out_prefix (s := { s with issues := rest }) hx

/-- Sending a request takes no time (R69, R173). -/
theorem sendRequest_now {s t : State} (h : sendRequest s = .next t) : t.now = s.now := by
  by_cases hmax : s.sentCount = s.maxCount
  · rw [sendRequest_finished hmax] at h
    obtain rfl := Host.Outcome.next.inj h
    rfl
  · rw [sendRequest_transmits hmax] at h
    obtain rfl := Host.Outcome.next.inj h
    rfl

/-- Time passes by ADV alone, and ADV does not wrap (R33, R181). -/
theorem exec_now {i : Instr} {s t : State} (hx : exec i s = .next t) :
    t.now = s.now ∨ ∃ d, i = .adv d ∧ t.now.toNat = s.now.toNat + d.toNat := by
  cases i
  case cfg =>
    obtain ⟨-, rfl⟩ := execCfg_next_iff.mp hx
    exact .inl rfl
  case start =>
    obtain ⟨-, hs⟩ := execStart_next_iff.mp hx
    exact .inl ((sendRequest_now hs).trans rfl)
  case rx =>
    obtain ⟨-, ⟨_, -, rfl⟩ | ⟨_, _, -, rfl⟩⟩ := execRx_next_iff.mp hx <;> exact .inl rfl
  case tmo =>
    obtain ⟨-, rfl⟩ := execTmo_next_iff.mp hx
    exact .inl rfl
  case rsnd =>
    obtain ⟨-, hs⟩ := execRsnd_next_iff.mp hx
    exact .inl ((sendRequest_now hs).trans rfl)
  case adv d =>
    obtain ⟨hd, rfl⟩ := execAdv_next_iff.mp hx
    exact .inr ⟨d, rfl, by bv_omega⟩
  case reset =>
    obtain rfl := Host.Outcome.next.inj hx
    exact .inl rfl
  case reserved0 | reserved7 | reservedD | reservedE => cases hx
  all_goals
    obtain ⟨r, rfl⟩ := exec_answer_next rfl hx
    exact .inl rfl

/-- Settles O49: a waiting step and every instruction but ADV keep the time, and ADV adds to it. -/
theorem timeNeverDecreases : Obligations.TimeNeverDecreases := by
  intro s t hstep
  obtain ⟨-, rfl⟩ | ⟨_, _, _, -, -, hx⟩ := step_next_cases hstep
  · exact Nat.le_refl _
  · obtain hnow | ⟨d, -, hnow⟩ := exec_now hx
    · exact Nat.le_of_eq (congrArg BitVec.toNat hnow).symm
    · exact hnow ▸ Nat.le_add_right _ _

end Sys2Proof.Proofs
end

section
/-! No instruction reads a register that holds no value (R43, U9): a relation between the outcomes from two states that agree
where a value is held, kept by each operation. -/

namespace Sys2Proof.Proofs

open Sys2Proof Sys2Proof.Machine Sys2Proof.Laws

/-- Two outcomes agree: next states that agree where a value is held, or the same refusal. -/
inductive OutcomesAgree : Host.Outcome State Fault Refusal → Host.Outcome State Fault Refusal → Prop
  | next {t t' : State} (h : AgreeWhereValued t t') : OutcomesAgree (.next t) (.next t')
  | refused (r : Refusal) : OutcomesAgree (.refused r) (.refused r)

/-- Outcomes of operations behind one guard agree when their bodies do, with the guard open. -/
theorem guarded_agree {b b' : Bool} {o o' : Host.Outcome State Fault Refusal} {r : Refusal}
    (hb : b' = b) (h : b = true → OutcomesAgree o o') :
    OutcomesAgree (if b then o else .refused r) (if b' then o' else .refused r) := by
  subst hb
  cases b'
  · exact .refused r
  · exact h rfl

/-! ### Updates that keep the agreement -/

theorem agree_result {s s' : State} (h : AgreeWhereValued s s') (r : Option Result) :
    AgreeWhereValued { s with result := r } { s' with result := r } :=
  { h with result := rfl }

theorem agree_rxArmed {s s' : State} (h : AgreeWhereValued s s') (b : Bool) :
    AgreeWhereValued { s with rxArmed := b } { s' with rxArmed := b } :=
  { h with rxArmed := rfl }

theorem agree_consumeWait {s s' : State} (h : AgreeWhereValued s s') :
    AgreeWhereValued (consumeWait s) (consumeWait s') :=
  { h with tmrArmed := rfl, tmrForced := rfl }

/-- `send_request` reads the configuration and the counters alone, and writes the timestamp and the timer (R173). -/
theorem sendRequest_agree {s s' : State} (h : AgreeWhereValued s s') (hcfg : s.cfgValid = true) :
    OutcomesAgree (sendRequest s) (sendRequest s') := by
  obtain ⟨hid, hmax, hsize, hdst⟩ := h.configuration hcfg
  by_cases hend : s.sentCount = s.maxCount
  · rw [sendRequest_finished hend,
      sendRequest_finished (h.sentCount.trans (hend.trans hmax.symm))]
    exact .next { h with fsm := rfl, rxArmed := rfl, session := nofun }
  · rw [sendRequest_transmits hend,
      sendRequest_transmits (by rw [h.sentCount, hmax]; exact hend)]
    simp only [hid, hsize, hdst, h.sentCount, h.now, h.out]
    exact .next
      { h with
        fsm := rfl
        sentCount := rfl
        replyCount := rfl
        tmrArmed := rfl
        tmrForced := rfl
        out := rfl
        now := rfl
        configuration := fun _ => ⟨rfl, hmax, rfl, rfl⟩
        session := fun _ => ⟨rfl, rfl, rfl⟩ }

/-! ### The timer and the receiver look at registers of a session only -/

/-- The timer events are enabled alike: an armed wait has a kind and a deadline (R42 item 2, R43). -/
theorem timerEnabled_agree {s s' : State} (hinv : Inv s) (h : AgreeWhereValued s s') :
    tmoEnabled s' = tmoEnabled s ∧ rsndEnabled s' = rsndEnabled s := by
  simp only [tmoEnabled, waitCompleted, rsndEnabled, h.tmrArmed, h.tmrForced, h.now]
  cases ha : s.tmrArmed with
  | false => simp
  | true =>
    obtain ⟨-, hkind, hdeadline⟩ := h.session (awaiting_of_tmrArmed hinv ha)
    rw [hkind, hdeadline]
    exact ⟨rfl, rfl⟩

/-- The acceptance predicate reads the identifier and the number of the last request (R179). -/
theorem screen_congr {s s' : State} (hid : s'.identifier = s.identifier)
    (hsent : s'.sentCount = s.sentCount) (d : List Byte) : screen s' d = screen s d := by
  simp only [screen, matchHeader, hid, hsent]

/-- A datagram is received alike: a session has its configuration, its timestamp and its timer (R178). -/
theorem handleReceive_agree {s s' : State} (h : AgreeWhereValued s s')
    (hw : s.fsm = .awaitingReply) (hcfg : s.cfgValid = true) {d : List Byte}
    (hd : d.length ≤ Config.rxMax) :
    OutcomesAgree (handleReceive (deliver d s)) (handleReceive (deliver d s')) := by
  obtain ⟨hid, hmax, -⟩ := h.configuration hcfg
  obtain ⟨hlast, hkind, -⟩ := h.session hw
  rw [handleReceive_deliver hd, handleReceive_deliver hd, screen_congr hid h.sentCount d]
  cases screen s d with
  | dropped f => exact .next { h with rxArmed := rfl }
  | accepted v4 vi =>
    simp only [acceptReply_deliver]
    exact .next
      { h with
        tmrForced := by simp only [h.tmrForced, h.replyCount, h.tmrArmed, hkind]
        replyCount := congrArg satInc h.replyCount
        out := by simp only [h.out, h.now, hlast]
        rxArmed := by simp only [h.sentCount, hmax] }

/-- TMO is refused but for a TIMEOUT wait that completes (R190). -/
theorem execTmo_refused {s : State} (h : tmoEnabled s = false) :
    exec .tmo s = .refused .notEnabled :=
  if_neg (by rw [h]; decide)

/-- The timeout handler reads the time and the number of replies, and writes the timer (R175). -/
theorem execTmo_agree {s s' : State} (hinv : Inv s) (h : AgreeWhereValued s s') :
    OutcomesAgree (exec .tmo s) (exec .tmo s') := by
  obtain ⟨hen, -⟩ := timerEnabled_agree hinv h
  cases he : tmoEnabled s with
  | false =>
    rw [execTmo_refused he, execTmo_refused (hen.trans he)]
    exact .refused _
  | true =>
    have hw := awaiting_of_tmrArmed hinv (tmoEnabled_iff.mp he).1
    obtain ⟨hlast, -⟩ := h.session hw
    rw [execTmo_next_iff.mpr ⟨tmoEnabled_iff.mp he, rfl⟩,
      execTmo_next_iff.mpr ⟨tmoEnabled_iff.mp (hen.trans he), rfl⟩]
    exact .next
      { h with
        tmrArmed := rfl
        tmrForced := rfl
        result := rfl
        out := by simp only [h.replyCount, h.out]
        session := fun _ => ⟨hlast, rfl, congrArg (· + Config.tResend) h.now⟩ }

/-- An instruction that answers puts the same answer on both result ports, or is refused for its operands (R8). -/
theorem exec_answer_agree {i : Instr} (hi : answers i = true) {s s' : State}
    (h : AgreeWhereValued s s') : OutcomesAgree (exec i s) (exec i s') := by
  obtain ⟨r, hr⟩ | hr := exec_answersUniformly hi
  · rw [hr s, hr s']
    exact .next (agree_result h _)
  · rw [hr s, hr s']
    exact .refused _

/-- From two states that agree where a value is held every instruction has outcomes that agree. -/
theorem exec_agree (i : Instr) {s s' : State} (hinv : Inv s) (h : AgreeWhereValued s s') :
    OutcomesAgree (exec i s) (exec i s') := by
  cases i
  case cfg =>
    refine guarded_agree (by simp only [cfgEnabled, h.fsm]) fun _ => .next ?_
    exact
      { h with
        cfgValid := rfl
        result := rfl
        configuration := fun _ => ⟨rfl, rfl, rfl, rfl⟩ }
  case start =>
    refine guarded_agree (by simp only [startEnabled, h.fsm, h.cfgValid]) fun hen => ?_
    obtain ⟨-, hcfg⟩ := startEnabled_iff.mp hen
    exact sendRequest_agree (agree_rxArmed (agree_result h none) true) hcfg
  case rx d =>
    refine guarded_agree h.rxArmed fun hrx => guarded_agree rfl fun hlen => ?_
    have hw := hinv.listening_awaiting hrx
    have hcfg := cfgValid_of_awaiting hinv hw
    exact handleReceive_agree (agree_result h none) hw hcfg (lengthAtMost_iff.mp hlen)
  case tmo => exact execTmo_agree hinv h
  case rsnd =>
    refine guarded_agree (timerEnabled_agree hinv h).2 fun hen => ?_
    obtain ⟨harmed, -⟩ := rsndEnabled_iff.mp hen
    have hcfg := cfgValid_of_awaiting hinv (awaiting_of_tmrArmed hinv harmed)
    exact sendRequest_agree (agree_consumeWait (agree_result h none)) hcfg
  case adv d =>
    refine guarded_agree (by simp only [advEnabled, h.now]) fun _ => .next ?_
    exact { h with now := congrArg (· + d) h.now, result := rfl }
  case reset =>
    exact .next
      { h with
        fsm := rfl
        cfgValid := rfl
        sentCount := rfl
        replyCount := rfl
        rxArmed := rfl
        tmrArmed := rfl
        tmrForced := rfl
        result := rfl
        configuration := nofun
        session := nofun }
  case reserved0 | reserved7 | reservedD | reservedE => exact .refused _
  all_goals exact exec_answer_agree rfl h

/-- Settles O4: the outcome from the first state decides which of the two ways of agreeing the outcomes have. -/
theorem unwrittenRegistersAreNeverRead : Obligations.UnwrittenRegistersAreNeverRead := by
  intro s s' i hinv h
  constructor
  · intro r hr
    have ho := exec_agree i hinv h
    rw [hr] at ho
    generalize exec i s' = o' at ho
    cases ho
    rfl
  · intro t ht
    have ho := exec_agree i hinv h
    rw [ht] at ho
    generalize exec i s' = o' at ho
    cases ho with
    | next h => exact ⟨_, rfl, h⟩

end Sys2Proof.Proofs
end

section
/-! How a step takes an issue (R69, R170), and the access to the two buffers: which bytes a write changes, and what a read gives of the bytes that lie there (R61 to R63). -/

namespace Sys2Proof.Proofs

open Sys2Proof Sys2Proof.Machine Sys2Proof.Laws

/-- Settles O10: its three clauses are the three ways a step goes. -/
theorem stepRunsTheDecodedInstruction : Obligations.StepRunsTheDecodedInstruction :=
  ⟨fun _ _ _ _ => step_of_decode_ok, fun _ _ _ _ => step_of_decode_error,
    fun _ => step_of_no_issue⟩

/-! ### Writes -/

theorem hi8_eq_ofNat (v : Half) : hi8 v = BitVec.ofNat 8 (v.toNat / 256) := by
  rw [← hi8_toNat, BitVec.ofNat_toNat, BitVec.setWidth_eq]

theorem lo8_eq_ofNat (v : Half) : lo8 v = BitVec.ofNat 8 v.toNat := by
  apply BitVec.eq_of_toNat_eq
  rw [lo8_toNat, BitVec.toNat_ofNat]

/-- The high byte lies at the lower offset (R61). -/
@[simp] theorem readByte_memWrite2_high (m : Memory) (a : Nat) (v : Half) :
    readByte (memWrite2 a v m) a = some (hi8 v) := by
  rw [memWrite2, readByte_memWrite1_other _ _ (by omega), readByte_memWrite1_self]

/-- The low byte lies at the higher offset (R61). -/
@[simp] theorem readByte_memWrite2_low (m : Memory) (a : Nat) (v : Half) :
    readByte (memWrite2 a v m) (a + 1) = some (lo8 v) :=
  readByte_memWrite1_self _ _ _

/-- A two-byte write leaves every other offset alone. -/
theorem readByte_memWrite2_other (m : Memory) {a x : Nat} (v : Half) (h : x ≠ a)
    (h' : x ≠ a + 1) : readByte (memWrite2 a v m) x = readByte m x := by
  rw [memWrite2, readByte_memWrite1_other _ _ h', readByte_memWrite1_other _ _ h]

/-- Two bytes read are the big-endian value of the two cells (R62). -/
theorem memRead2_of_readByte {m : Memory} {a : Nat} {b0 b1 : Byte} (h0 : readByte m a = some b0)
    (h1 : readByte m (a + 1) = some b1) : memRead2 m a = some (be16 b0 b1) := by
  simp only [memRead2, h0, h1]

/-- Four bytes read are the big-endian value of the four cells (R62). -/
theorem memRead4_of_readByte {m : Memory} {a : Nat} {b0 b1 b2 b3 : Byte}
    (h0 : readByte m a = some b0) (h1 : readByte m (a + 1) = some b1)
    (h2 : readByte m (a + 2) = some b2) (h3 : readByte m (a + 3) = some b3) :
    memRead4 m a = some (be32 b0 b1 b2 b3) := by
  simp only [memRead4, memRead2_of_readByte h0 h1, memRead2_of_readByte h2 h3, be32]

/-- A two-byte write reads back. -/
@[simp] theorem memRead2_memWrite2 (m : Memory) (a : Nat) (v : Half) :
    memRead2 (memWrite2 a v m) a = some v := by
  rw [memRead2_of_readByte (readByte_memWrite2_high m a v) (readByte_memWrite2_low m a v),
    be16_hi_lo]

/-- Writing a byte sequence leaves the offsets before and after it alone. -/
theorem readByte_writeBytes_outside (bytes : List Byte) (m : Memory) {a x : Nat}
    (h : x < a ∨ a + bytes.length ≤ x) :
    readByte (writeBytes a bytes m) x = readByte m x := by
  induction bytes generalizing a m with
  | nil => rfl
  | cons b bytes ih =>
    rw [List.length_cons] at h
    rw [writeBytes, ih _ (by omega), readByte_memWrite1_other _ _ (by omega)]

/-- A byte sequence reads back where it was written, byte for byte. -/
theorem readByte_writeBytes_inside (bytes : List Byte) (m : Memory) (a : Nat) {n : Nat}
    (h : n < bytes.length) : readByte (writeBytes a bytes m) (a + n) = bytes[n]? := by
  induction bytes generalizing a m n with
  | nil => cases h
  | cons b bytes ih =>
    cases n with
    | zero =>
      rw [writeBytes, readByte_writeBytes_outside _ _ (by omega)]
      exact readByte_memWrite1_self m a b
    | succ n =>
      have hn : a + (n + 1) = a + 1 + n := by omega
      rw [writeBytes, hn, ih _ _ (Nat.lt_of_succ_lt_succ h), List.getElem?_cons_succ]

/-! ### Reads of a filled buffer -/

theorem readByte_loadBytes_zero (bytes : List Byte) (a : Nat) :
    readByte (loadBytes 0 bytes) a = bytes[a]? := by
  simpa using readByte_loadBytes bytes 0 a

/-- A range at the start of a loaded buffer reads as that many of its bytes, or as nothing where it has fewer. -/
theorem readRange_loadBytes_start (bytes : List Byte) (a n : Nat) :
    readRange (loadBytes a bytes) a n =
      if n ≤ bytes.length then some (bytes.take n) else none := by
  induction bytes generalizing a n with
  | nil => cases n <;> simp [loadBytes, readRange]
  | cons b bytes ih =>
    cases n with
    | zero => simp [readRange]
    | succ n =>
      simp only [loadBytes, readRange, Nat.lt_irrefl, if_false, if_true, ih]
      by_cases h : n ≤ bytes.length <;> simp [h]

/-- The reader of a range passes over the bytes that lie before it. -/
theorem readRange_loadBytes_skip (bytes : List Byte) (a i n : Nat) :
    readRange (loadBytes a bytes) (a + i) n =
      readRange (loadBytes (a + i) (bytes.drop i)) (a + i) n := by
  induction i generalizing a bytes with
  | zero => rfl
  | succ i ih =>
    cases bytes with
    | nil => rfl
    | cons b bytes =>
      have hi : a + (i + 1) = a + 1 + i := by omega
      have hpass : readRange (loadBytes a (b :: bytes)) (a + 1 + i) n =
          readRange (loadBytes (a + 1) bytes) (a + 1 + i) n := by
        cases n with
        | zero => simp [readRange]
        | succ n =>
          have hlt : a < a + 1 + i := by omega
          simp only [loadBytes, readRange, hlt, if_true]
      rw [hi, hpass, ih, List.drop_succ_cons]

/-- A range of a loaded buffer reads as its bytes when all of them are filled, else as nothing (log 9). -/
theorem readRange_loadBytes_zero (bytes : List Byte) (a n : Nat) :
    readRange (loadBytes 0 bytes) a n =
      if n ≤ bytes.length - a then some ((bytes.drop a).take n) else none := by
  have hskip := readRange_loadBytes_skip bytes 0 a n
  rw [Nat.zero_add] at hskip
  rw [hskip, readRange_loadBytes_start, List.length_drop]

/-- Settles O26, from the laws of the writes and of the reads; a value read is one of the bytes put side by side. -/
theorem bufferAccessesAreBigEndian : Obligations.BufferAccessesAreBigEndian := by
  refine ⟨fun m a v => ⟨memRead2_memWrite2 m a v, ?_, ?_, fun x => readByte_memWrite2_other m v⟩,
    fun m a v => ⟨readByte_memWrite1_self m a v, fun x => readByte_memWrite1_other m v⟩,
    ?_, ?_, ?_, fun B a n => ⟨fun h => ?_, fun hn h => ?_⟩,
    fun m header a n => ⟨readByte_writeBytes_inside header m a,
      fun x => readByte_writeBytes_outside header m⟩⟩
  · rw [readByte_memWrite2_high, hi8_eq_ofNat]
  · rw [readByte_memWrite2_low, lo8_eq_ofNat]
  · intro B a b0 h0
    exact (readByte_loadBytes_zero B a).trans h0
  · intro B a b0 b1 h0 h1
    simp only [← readByte_loadBytes_zero] at h0 h1
    exact ⟨_, memRead2_of_readByte h0 h1, be16_toNat b0 b1⟩
  · intro B a b0 b1 b2 b3 h0 h1 h2 h3
    simp only [← readByte_loadBytes_zero] at h0 h1 h2 h3
    exact ⟨_, memRead4_of_readByte h0 h1 h2 h3, be32_toNat b0 b1 b2 b3⟩
  · rw [readRange_loadBytes_zero, if_pos (by omega)]
  · rw [readRange_loadBytes_zero, if_neg (by omega)]

end Sys2Proof.Proofs
end

section
/-! The encoding of instructions (R82 to R91): decoder and encoder undo each other, and which words are instructions. -/

namespace Sys2Proof.Proofs

open Sys2Proof Sys2Proof.Machine Sys2Proof.Laws

/-! ### Decoding an encoded instruction -/

theorem decode_encode_echoRequest (c i q : Half) :
    decode (encode (.echoRequest c i q)) = .ok (.echoRequest c i q) := by
  simp [encode, encodeWord, icmpHeaderBytes, decode, decodeIcmpHeader]

/-- The two types differ, so no reply is taken for a request, whatever its code (R81, R82). -/
theorem decode_encode_echoReply (k : Byte) (c i q : Half) :
    decode (encode (.echoReply k c i q)) = .ok (.echoReply k c i q) := by
  have htype : Config.icmpEchoReply ≠ Config.icmpEchoRequest := by decide
  simp [encode, encodeWord, icmpHeaderBytes, decode, decodeIcmpHeader, htype]

/-- An encoded IPv4 header has version 4, and so meets the decoder's two other tests alone (R83 to R85). -/
theorem decode_encode_ipv4Header (h : Ip4Fields) (options : List Byte) :
    decode (encode (.ipv4Header h options)) =
      if h.ihl.toNat < 5 then .error .ipLength
      else if 20 + options.length ≠ 4 * h.ihl.toNat then .error .ipOptions
      else .ok (.ipv4Header h options) := by
  simp [encode, encodeWord, ip4HeaderBytes, decode, decodeIp4Header, headerLength]

/-- Settles O7: a wire format gives its fields back, an event code its operation with the ports as they are. -/
theorem decodeOfEncodeIsTheInstruction : Obligations.DecodeOfEncodeIsTheInstruction := by
  intro i
  cases i
  case echoRequest c i q =>
    exact ⟨fun _ => decode_encode_echoRequest c i q, decode_encode_echoRequest c i q⟩
  case echoReply k c i q =>
    exact ⟨fun _ => decode_encode_echoReply k c i q, decode_encode_echoReply k c i q⟩
  case ipv4Header h options =>
    have hwhole (hi : 5 ≤ h.ihl.toNat) (ho : 20 + options.length = 4 * h.ihl.toNat) :
        decode (encode (.ipv4Header h options)) = .ok (.ipv4Header h options) := by
      rw [decode_encode_ipv4Header, if_neg (Nat.not_lt.mpr hi), if_neg (not_not.mpr ho)]
    refine ⟨fun hwf => ?_, hwhole, fun hi => ?_, fun hi ho => ?_⟩
    · rw [Instr.wellFormed, Bool.and_eq_true, decide_eq_true_eq, decide_eq_true_eq] at hwf
      obtain ⟨hi, ho⟩ := hwf
      exact hwhole hi ho
    · rw [decode_encode_ipv4Header, if_pos hi]
    · rw [decode_encode_ipv4Header, if_neg (Nat.not_lt.mpr hi), if_pos ho]
  all_goals exact ⟨fun _ => rfl, rfl⟩

/-! ### Encoding what a word decodes to -/

theorem encodeWord_of_decodeEvent {b : Byte} {p : Ports} {i : Instr}
    (h : decodeEvent b p = .ok i) : encodeWord i = [b] := by
  unfold decodeEvent at h
  split at h
  case h_17 => cases h
  all_goals
    rename_i hb
    cases h
    exact congrArg (fun b : Byte => [b]) (BitVec.eq_of_toNat_eq hb.symm)

theorem encodeWord_of_decodeIcmpHeader {b0 b1 b2 b3 b4 b5 b6 b7 : Byte} {i : Instr}
    (h : decodeIcmpHeader b0 b1 b2 b3 b4 b5 b6 b7 = .ok i) :
    encodeWord i = [b0, b1, b2, b3, b4, b5, b6, b7] := by
  unfold decodeIcmpHeader at h
  split at h
  case isTrue hrequest =>
    cases h
    simp [encodeWord, icmpHeaderBytes, hrequest]
  case isFalse =>
    split at h
    case isTrue hreply =>
      cases h
      simp [encodeWord, icmpHeaderBytes, hreply]
    case isFalse => cases h

/-- Byte 6 is the three flags and the high bits of the fragment offset, and nothing else (R83). -/
theorem flagsByte_of_fields (b6 b7 : Byte) :
    flagsByte (reservedFlagOf b6) (dfOf b6) (mfOf b6) (fragmentOffsetOf b6 b7) = b6 := by
  rw [flagsByte, fragmentOffsetOf, BitVec.extractLsb'_append_eq_left]
  clear b7
  revert b6
  decide

theorem low8_fragmentOffsetOf (b6 b7 : Byte) : (fragmentOffsetOf b6 b7).extractLsb' 0 8 = b7 :=
  BitVec.extractLsb'_append_eq_right

theorem encodeWord_of_decodeIp4Header
    {b0 b1 b2 b3 b4 b5 b6 b7 b8 b9 b10 b11 b12 b13 b14 b15 b16 b17 b18 b19 : Byte}
    {options : List Byte} {i : Instr}
    (h : decodeIp4Header b0 b1 b2 b3 b4 b5 b6 b7 b8 b9 b10 b11 b12 b13 b14 b15 b16 b17 b18 b19
      options = .ok i) :
    encodeWord i = b0 :: b1 :: b2 :: b3 :: b4 :: b5 :: b6 :: b7 :: b8 :: b9 :: b10 :: b11 :: b12 ::
      b13 :: b14 :: b15 :: b16 :: b17 :: b18 :: b19 :: options := by
  obtain ⟨⟨hversion, -, -⟩, rfl⟩ := decodeIp4Header_ok_iff.mp h
  simp [encodeWord, ip4HeaderBytes, ← hversion, version_ihl_append, flagsByte_of_fields,
    low8_fragmentOffsetOf, be32]

/-- Settles O9: each of the three formats keeps every bit of its word. -/
theorem encodeOfDecodeIsTheWord : Obligations.EncodeOfDecodeIsTheWord := by
  rintro ⟨word, p⟩ i h
  unfold decode at h
  dsimp only at h ⊢
  split at h
  · exact encodeWord_of_decodeEvent h
  · exact encodeWord_of_decodeIcmpHeader h
  · exact encodeWord_of_decodeIp4Header h
  · cases h

/-! ### Which words are instructions -/

/-- An event code has 4 bits (R88); the rest of the byte is the model's framing (log 5). -/
theorem decodeEvent_of_sixteen_le {b : Byte} (h : 16 ≤ b.toNat) (p : Ports) :
    decodeEvent b p = .error .eventNibble := by
  unfold decodeEvent
  split
  case h_17 => rfl
  all_goals omega

/-- Settles O5: the sixteen entries of the event code map, and none above them. -/
theorem eventCodesSelectTheirOperations : Obligations.EventCodesSelectTheirOperations :=
  fun p => ⟨rfl, rfl, rfl, rfl, rfl, rfl, rfl, rfl, rfl, rfl, rfl, rfl, rfl, rfl, rfl, rfl,
    fun _ hb => decodeEvent_of_sixteen_le hb p⟩

/-- Settles O6: the decoder run on three headers that are written out. -/
theorem wireHeadersSelectTheirFormats : Obligations.WireHeadersSelectTheirFormats :=
  fun _ => ⟨rfl, rfl, rfl⟩

/-- Settles O11: neither the ports nor the state are looked at. -/
theorem reservedCodesAreRefused : Obligations.ReservedCodesAreRefused :=
  ⟨fun _ => ⟨rfl, rfl, rfl, rfl⟩, fun _ => ⟨rfl, rfl, rfl, rfl⟩⟩

theorem versionOf_toNat (b0 : Byte) : (versionOf b0).toNat = b0.toNat / 16 := by
  revert b0
  decide

theorem versionOf_eq_iff (b0 : Byte) : versionOf b0 = Config.ipVersion ↔ b0.toNat / 16 = 4 := by
  rw [← versionOf_toNat]
  exact BitVec.toNat_inj.symm

theorem ihlOf_toNat (b0 : Byte) : (ihlOf b0).toNat = b0.toNat % 16 := by
  simp [ihlOf]

/-- Settles O8: the decoder's three tests in order; a word that passes them passes those of IP4DEC (R150). -/
theorem ipv4WordsDecodeExactlyWhenWhole : Obligations.Ipv4WordsDecodeExactlyWhenWhole := by
  intro b0 rest p hlen
  obtain ⟨c0, b1, b2, b3, b4, b5, b6, b7, b8, b9, b10, b11, b12, b13, b14, b15, b16, b17, b18, b19,
    options, hword⟩ := exists_of_twenty_le (b := b0 :: rest) (by simpa using hlen)
  obtain ⟨rfl, hrest⟩ := List.cons.inj hword
  have hbytes : 1 + rest.length = 20 + options.length := by
    rw [hrest]
    simp only [List.length_cons]
    omega
  simp only [ne_eq, ← versionOf_eq_iff, ← ihlOf_toNat, hbytes]
  subst hrest
  refine ⟨fun hv => ?_, fun hv hi => ?_, fun hv hi ho => ?_, fun hv hi ho => ?_⟩
  · exact if_pos hv
  · exact (if_neg (not_not.mpr hv)).trans (if_pos hi)
  · exact (if_neg (not_not.mpr hv)).trans ((if_neg (Nat.not_lt.mpr hi)).trans (if_pos ho))
  · have hfull : ¬ 20 + options.length < headerLength (ihlOf b0) := Nat.not_lt.mpr ho.ge
    have hview := ip4dec_of_bytes b0 b1 b2 b3 b4 b5 b6 b7 b8 b9 b10 b11 b12 b13 b14 b15 b16 b17 b18
      b19 options
    rw [if_neg (not_not.mpr hv), if_neg (Nat.not_lt.mpr hi), if_neg hfull] at hview
    refine ⟨_, _, decodeIp4Header_ok_iff.mpr ⟨⟨hv, hi, ho⟩, rfl⟩, rfl, hview, rfl, rfl, rfl, ?_⟩
    exact List.take_of_length_le (by rw [headerLength]; omega)

/-! ### What the block makes of the wire formats (log 6) -/

/-- IP4DEC on an encoded header and the bytes after it: the fields come back, if the header is whole (R83, R150). -/
theorem ip4dec_ip4HeaderBytes (h : Ip4Fields) (options : List Byte) :
    ip4dec (ip4HeaderBytes h ++ options) =
      if h.ihl.toNat < 5 then .fail .ip4Ihl
      else if 20 + options.length < 4 * h.ihl.toNat then .fail .ip4Trunc
      else .ok
        { version := Config.ipVersion, ihl := h.ihl, tos := h.tos, totalLength := h.totalLength,
          identification := h.identification, df := h.df, mf := h.mf,
          fragmentOffset := h.fragmentOffset, ttl := h.ttl, protocol := h.protocol,
          headerChecksum := h.headerChecksum, source := h.source, destination := h.destination,
          options := options.take (4 * h.ihl.toNat - 20),
          headerLengthBytes := BitVec.ofNat 6 (4 * h.ihl.toNat) } := by
  simp [ip4HeaderBytes, ip4dec_of_bytes, headerLength]

theorem icmpdec_icmpHeaderBytes (type code : Byte) (c i q : Half) :
    icmpdec (icmpHeaderBytes type code c i q) =
      .ok { type := type, code := code, checksum := c, identifier := i, sequenceNumber := q } := by
  simp [icmpHeaderBytes, icmpdec]

theorem exec_ipv4Header (h : Ip4Fields) (options : List Byte) (s : State) :
    exec (.ipv4Header h options) s =
      if 20 + options.length ≤ 65535 then
        .next (setResult (.ip4 (ip4dec (ip4HeaderBytes h ++ options))) s)
      else .refused .operandDomain := by
  simp only [exec, execIpv4Header, execIp4dec, lengthAtMost_iff, List.length_append,
    length_ip4HeaderBytes, Config.rxMax]

/-- Settles O41: the decoders give the fields of an encoded header back, and their answer goes to the result port. -/
theorem wireFormatsAreDecoded : Obligations.WireFormatsAreDecoded := by
  refine ⟨fun c i q s => ?_, fun k c i q s => ?_, fun h options s => ⟨fun hlen => ?_, fun hlen => ?_⟩⟩
  · rw [exec, execEchoRequest, presentIcmpHeader, icmpdec_icmpHeaderBytes]
    rfl
  · rw [exec, execEchoReply, presentIcmpHeader, icmpdec_icmpHeaderBytes]
    rfl
  · refine ⟨_, (exec_ipv4Header h options s).trans (if_pos hlen), fun hi => ?_, fun hi ho => ?_,
      fun hi ho => ?_⟩ <;> rw [ip4dec_ip4HeaderBytes]
    · rw [if_pos hi]
    · rw [if_neg (Nat.not_lt.mpr hi), if_pos ho]
    · rw [if_neg (Nat.not_lt.mpr hi), if_neg (Nat.not_lt.mpr ho)]
      exact ⟨_, rfl, rfl, rfl, rfl, rfl, rfl, rfl, rfl, rfl, rfl, rfl, rfl, rfl, rfl⟩
  · exact (exec_ipv4Header h options s).trans (if_neg (Nat.not_le.mpr hlen))

end Sys2Proof.Proofs
end

section
/-! Which bytes of a datagram decide whether it is reported (R93, R133, R179). -/

namespace Sys2Proof.Proofs

open Sys2Proof Sys2Proof.Machine Sys2Proof.Laws

/-- IP4DEC fails by the first byte and the length alone; if it does not, the
header is as long as the first byte says (R150, R155). -/
theorem ip4dec_of_head {D D' : List Byte} (hlen : D.length = D'.length) (h0 : D[0]? = D'[0]?) :
    (∃ f, ip4dec D = .fail f ∧ ip4dec D' = .fail f) ∨
      ∃ b0 v v', D[0]? = some b0 ∧ ip4dec D = .ok v ∧ ip4dec D' = .ok v' ∧
        v.headerLengthBytes.toNat = 4 * (b0.toNat % 16) ∧
        v'.headerLengthBytes = v.headerLengthBytes := by
  by_cases hshort : D.length < 20
  · exact .inl ⟨_, ip4dec_of_length_lt hshort, ip4dec_of_length_lt (hlen ▸ hshort)⟩
  have hlong : 20 ≤ D.length := Nat.not_lt.mp hshort
  obtain ⟨b0, b1, b2, b3, b4, b5, b6, b7, b8, b9, b10, b11, b12, b13, b14, b15, b16, b17, b18, b19,
    rest, rfl⟩ := exists_of_twenty_le hlong
  obtain ⟨b0', b1', b2', b3', b4', b5', b6', b7', b8', b9', b10', b11', b12', b13', b14', b15',
    b16', b17', b18', b19', rest', rfl⟩ := exists_of_twenty_le (hlen ▸ hlong)
  obtain rfl : b0 = b0' := by simpa using h0
  have hrest : rest.length = rest'.length := by simpa using hlen
  rw [ip4dec_of_bytes, ip4dec_of_bytes, ← hrest]
  split
  · exact .inl ⟨_, rfl, rfl⟩
  split
  · exact .inl ⟨_, rfl, rfl⟩
  split
  · exact .inl ⟨_, rfl, rfl⟩
  refine .inr ⟨b0, _, _, rfl, rfl, rfl, ?_, rfl⟩
  rw [BitVec.toNat_ofNat, headerLength, ihlOf_toNat]
  omega

/-- ICMPDEC on the first 8 bytes of a long enough sequence reads each field from its place (R131). -/
theorem icmpdec_take_eight {m : List Byte} (h : 8 ≤ m.length) :
    icmpdec (m.take 8) = .ok
      { type := m[0], code := m[1], checksum := be16 m[2] m[3], identifier := be16 m[4] m[5],
        sequenceNumber := be16 m[6] m[7] } := by
  match m, h with
  | _ :: _ :: _ :: _ :: _ :: _ :: _ :: _ :: _, _ => rfl

/-- Tests 3 to 5 look at the type, the identifier and the sequence number alone (R133, R179): two
messages of one length that agree there both fail to decode, or decode to headers with the same outcome of the tests. -/
theorem icmpdec_matchHeader_of_tested (s : State) {m m' : List Byte} (hlen : m.length = m'.length)
    (h : ∀ k ∈ [0, 4, 5, 6, 7], m[k]? = m'[k]?) :
    (∃ f, icmpdec (m.take 8) = .fail f ∧ icmpdec (m'.take 8) = .fail f) ∨
      ∃ v v', icmpdec (m.take 8) = .ok v ∧ icmpdec (m'.take 8) = .ok v' ∧
        matchHeader s v' = matchHeader s v := by
  by_cases hshort : m.length < 8
  · have hne : (m.take 8).length ≠ 8 := by rw [List.length_take]; omega
    have hne' : (m'.take 8).length ≠ 8 := by rw [List.length_take]; omega
    exact .inl ⟨_, icmpdec_of_length_ne hne, icmpdec_of_length_ne hne'⟩
  · have hm : 8 ≤ m.length := Nat.not_lt.mp hshort
    have hm' : 8 ≤ m'.length := hlen ▸ hm
    refine .inr ⟨_, _, icmpdec_take_eight hm, icmpdec_take_eight hm', ?_⟩
    have hbyte : ∀ (k : Nat) (hk : k < 8), k ∈ [0, 4, 5, 6, 7] → m'[k] = m[k] := fun k hk hmem => by
      have := h k hmem
      rw [List.getElem?_eq_getElem (by omega), List.getElem?_eq_getElem (by omega)] at this
      exact (Option.some.inj this).symm
    simp [matchHeader, hbyte]

/-- A datagram is dropped for what the tested bytes say (R93, R179). -/
theorem screen_dropped_iff_of_tested (s : State) {D D' : List Byte} (hlen : D.length = D'.length)
    (h0 : D[0]? = D'[0]?)
    (h : ∀ b0 : Byte, D[0]? = some b0 → ∀ k ∈ [0, 4, 5, 6, 7],
      D[4 * (b0.toNat % 16) + k]? = D'[4 * (b0.toNat % 16) + k]?) (f : Failure) :
    screen s D = .dropped f ↔ screen s D' = .dropped f := by
  unfold screen
  obtain ⟨g, hv, hv'⟩ | ⟨b0, v, v', hb0, hv, hv', hn, hn'⟩ := ip4dec_of_head hlen h0
  · rw [hv, hv']
  · have htested : ∀ k ∈ [0, 4, 5, 6, 7],
        (D.drop v.headerLengthBytes.toNat)[k]? = (D'.drop v.headerLengthBytes.toNat)[k]? := by
      simpa only [hn, List.getElem?_drop] using h b0 hb0
    have hrest : (D.drop v.headerLengthBytes.toNat).length =
        (D'.drop v.headerLengthBytes.toNat).length := by
      rw [List.length_drop, List.length_drop, hlen]
    simp only [hv, hv', hn']
    obtain ⟨g, hi, hi'⟩ | ⟨vi, vi', hi, hi', hmatch⟩ :=
      icmpdec_matchHeader_of_tested s hrest htested
    · rw [hi, hi']
    · simp only [hi, hi', hmatch]
      cases matchHeader s vi <;> simp

/-- A datagram leaves the output stream as it is exactly when it is dropped (R178). -/
theorem execRx_out_eq_iff {D : List Byte} {s t : State} (h : exec (.rx D) s = .next t) :
    t.out = s.out ↔ ∃ f, screen s D = .dropped f := by
  obtain ⟨-, ⟨f, hs, rfl⟩ | ⟨v4, vi, hs, rfl⟩⟩ := execRx_next_iff.mp h <;> simp [hs]

/-- Settles O37: the tested bytes decide whether a datagram is dropped, and a dropped one is not reported. -/
theorem untestedFieldsDoNotDecide : Obligations.UntestedFieldsDoNotDecide := by
  intro D D' s t t' hlen h0 h ht ht'
  rw [execRx_out_eq_iff ht, execRx_out_eq_iff ht']
  exact exists_congr fun f => screen_dropped_iff_of_tested s hlen h0 h f

end Sys2Proof.Proofs
end

section
/-! The timer event (R94) and the pseudo-operations of a script (R96). -/

namespace Sys2Proof.Proofs

open Sys2Proof Sys2Proof.Machine Sys2Proof.Laws

theorem timerEvent_eq_ite (k : TmrKind) : timerEvent k = if k = .timeout then .tmo else .rsnd := by
  cases k <;> rfl

/-- The difference of two times is that of the natural numbers, where the first is not the greater (R33). -/
theorem sub_eq_ofNat_toNat {a b : Time} (h : b ≤ a) :
    a - b = BitVec.ofNat 64 (a.toNat - b.toNat) := by
  apply BitVec.eq_of_toNat_eq
  rw [BitVec.toNat_sub_of_le h, BitVec.toNat_ofNat, Nat.mod_eq_of_lt (by omega)]

theorem timeToDeadline_eq (s : State) :
    timeToDeadline s = BitVec.ofNat 64 (s.tmrDeadline.toNat - s.now.toNat) := by
  unfold timeToDeadline
  split
  case isTrue h => exact sub_eq_ofNat_toNat h
  case isFalse h =>
    rw [Nat.sub_eq_zero_of_le (Nat.le_of_lt (BitVec.not_le.mp h))]
    rfl

theorem expandLine_tmr (s : State) :
    expandLine .tmr s =
      if s.tmrArmed = true ∧ (s.tmrForced = true ∨ s.tmrDeadline ≤ s.now) then
        some [timerEvent s.tmrKind] else none := by
  simp only [expandLine, waitCompleted_iff]

/-- Settles O53: each expansion is a branch on the timer or on the time, whose differences do not wrap there. -/
theorem pseudoOperationsExpand : Obligations.PseudoOperationsExpand := by
  intro s
  simp only [← timerEvent_eq_ite, ← timeToDeadline_eq]
  refine ⟨expandLine_tmr s, fun ha hf => ?_, fun ha hf => ?_, fun ha => ?_, fun t ht => ?_,
    fun t ht => ?_, fun _ _ _ _ => rfl⟩
  · simp [expandLine, ha, hf]
  · simp [expandLine, ha, hf]
  · simp [expandLine, ha]
  · rw [expandLine, if_pos ht, sub_eq_ofNat_toNat ht]
  · exact if_neg (BitVec.not_le.mpr ht)

/-- RSND is refused but for a RESEND wait that completes (R190). -/
theorem execRsnd_refused {s : State} (h : rsndEnabled s = false) :
    exec .rsnd s = .refused .notEnabled :=
  if_neg (by rw [h]; decide)

/-- Settles O33: a completed wait enables the event of its kind, whose operation never stops; a RESEND wait is never forced. -/
theorem timerRaisesExactlyOneEvent : Obligations.TimerRaisesExactlyOneEvent := by
  intro s hinv ha hw
  have htmr : expandLine .tmr s = some [timerEvent s.tmrKind] :=
    (expandLine_tmr s).trans (if_pos ⟨ha, hw⟩)
  refine ⟨fun hk => ?_, fun hk => ?_⟩ <;> rw [hk] at htmr
  · refine ⟨⟨_, execTmo_next_iff.mpr ⟨⟨ha, hk, hw⟩, rfl⟩⟩, execRsnd_refused ?_, htmr⟩
    simp [rsndEnabled, hk]
  · have hdue : s.tmrDeadline ≤ s.now := hw.resolve_left fun hf => by
      obtain ⟨-, hkt, -⟩ := hinv.forced_timeout hf
      cases hk.symm.trans hkt
    obtain ⟨t, ht⟩ := sendRequest_next (consumeWait (clearResult s))
    refine ⟨⟨t, execRsnd_next_iff.mpr ⟨⟨ha, hk, hdue⟩, ht⟩⟩, execTmo_refused ?_, htmr⟩
    simp [tmoEnabled, hk]

end Sys2Proof.Proofs
end

section
/-! The checksum unit (R110 to R115): the words of a byte sequence, the two folds, CSUM and CSUMCHK. -/

namespace Sys2Proof.Proofs

open Sys2Proof Sys2Proof.Machine Sys2Proof.Laws

/-! ### The words of a byte sequence -/

/-- Word `j` pairs bytes `2j` and `2j + 1`; where the second is missing it counts as zero (R110). -/
theorem getElem?_words (P : List Byte) (j : Nat) :
    (words P)[j]? = P[2 * j]?.map fun a => be16 a (P[2 * j + 1]?.getD 0#8) := by
  induction P using words.induct generalizing j with
  | case1 => rfl
  | case2 b => cases j <;> simp [words, Nat.mul_add]
  | case3 b0 b1 rest ih =>
    cases j with
    | zero => rfl
    | succ j => exact ih j

/-- As many words as R110 counts, each at most 0xFFFF (R112). -/
theorem sum_words_le (P : List Byte) :
    ((words P).map BitVec.toNat).sum ≤ (P.length + 1) / 2 * 0xFFFF := by
  have hword : ∀ n ∈ (words P).map BitVec.toNat, n ≤ 0xFFFF := by
    intro n hn
    obtain ⟨w, -, rfl⟩ := List.mem_map.mp hn
    exact Nat.le_of_lt_succ w.isLt
  simpa [length_words] using List.sum_le_card_nsmul _ _ hword

/-! ### The fold -/

theorem fold_lt (S : Word) : (fold S).toNat < 2 ^ 17 := by
  rw [fold_toNat]
  omega

/-- Settles O14: word `j` is read off the bytes it pairs, and a fold adds the two halves. -/
theorem wordsPairBytesAndFoldAddsTheHalves : Obligations.WordsPairBytesAndFoldAddsTheHalves := by
  refine ⟨length_words, fun P j a b ha hb => ?_, fun P j a ha hlen => ?_,
    fun S => ⟨fold_toNat S, fold_lt S⟩⟩
  · exact ⟨be16 a b, by simp [getElem?_words, ha, hb], be16_toNat a b⟩
  · have hend : P[2 * j + 1]? = none := List.getElem?_eq_none hlen.le
    exact ⟨be16 a 0#8, by simp [getElem?_words, ha, hend], by simp [be16_toNat]⟩

/-- A fold takes away a multiple of 0xFFFF, as 0x10000 is 1 modulo 0xFFFF (R113). -/
theorem fold_mod (S : Word) : (fold S).toNat % 0xFFFF = S.toNat % 0xFFFF := by
  rw [fold_toNat]
  omega

/-- Folding never increases a value (R114). -/
theorem fold_fold_le_self (S : Word) : (fold (fold S)).toNat ≤ S.toNat := by
  rw [fold_toNat, fold_toNat]
  omega

theorem toNat_eq_zero_of_fold {S : Word} (h : (fold S).toNat = 0) : S.toNat = 0 := by
  rw [fold_toNat] at h
  omega

/-- The second fold absorbs the carry of the first (R113). -/
theorem fold_fold_le (S : Word) : (fold (fold S)).toNat ≤ 0xFFFF := by
  rw [fold_toNat, fold_toNat]
  omega

theorem fold_fold_mod (S : Word) : (fold (fold S)).toNat % 0xFFFF = S.toNat % 0xFFFF :=
  (fold_mod _).trans (fold_mod S)

theorem toNat_eq_zero_of_fold_fold {S : Word} (h : (fold (fold S)).toNat = 0) : S.toNat = 0 :=
  toNat_eq_zero_of_fold (toNat_eq_zero_of_fold h)

/-- Among the values 0 to 0xFFFF the residue leaves a choice between 0 and 0xFFFF only, and 0 is reached from 0 alone. -/
theorem fold_fold_eq_allOnes_iff (S : Word) :
    (fold (fold S)).toNat = 0xFFFF ↔ S.toNat ≠ 0 ∧ S.toNat % 0xFFFF = 0 := by
  have hle := fold_fold_le S
  have hmod := fold_fold_mod S
  constructor
  · intro h
    have hself := fold_fold_le_self S
    omega
  · rintro ⟨hne, h0⟩
    have hpos := mt toNat_eq_zero_of_fold_fold hne
    omega

/-- The complement of a sum that fits 16 bits (R111). -/
theorem complement_toNat {S : Word} (h : S.toNat ≤ 0xFFFF) :
    ((~~~S).extractLsb' 0 16).toNat = 0xFFFF - S.toNat := by
  rw [BitVec.extractLsb'_toNat, BitVec.toNat_not, Nat.shiftRight_zero]
  omega

/-- Settles O17: the bounds from the halves a fold adds, the residues from `fold_mod`. -/
theorem twoFoldsAreEnough : Obligations.TwoFoldsAreEnough := by
  intro S
  have hhalves := fold_toNat S
  refine ⟨?_, ?_, ?_, fold_fold_le S, complement_toNat (fold_fold_le S), fold_fold_mod S,
    toNat_eq_zero_of_fold_fold, fold_fold_eq_allOnes_iff S⟩ <;> omega

/-! ### The accumulator of CSUM -/

/-- The header words without the checksum and the payload words, added on natural numbers (R111). -/
def checksumTotal (type code : Byte) (identifier sequenceNumber : Half) (P : List Byte) : Nat :=
  type.toNat * 256 + code.toNat + identifier.toNat + sequenceNumber.toNat
    + ((words P).map BitVec.toNat).sum

section
variable (type code : Byte) (identifier sequenceNumber : Half) {P : List Byte}

/-- Three header words and at most 32768 payload words of at most 0xFFFF each (R112). -/
theorem checksumTotal_le (h : P.length ≤ 65535) :
    checksumTotal type code identifier sequenceNumber P ≤ 0x80027FFD := by
  have hwords := sum_words_le P
  have := type.isLt
  have := code.isLt
  have := identifier.isLt
  have := sequenceNumber.isLt
  unfold checksumTotal
  omega

/-- The 32-bit accumulator holds the sum on natural numbers (R112). -/
theorem accumulator_toNat (h : P.length ≤ 65535) :
    (accumulate (headerSum type code identifier sequenceNumber) (words P)).toNat =
      checksumTotal type code identifier sequenceNumber P := by
  have hle := checksumTotal_le type code identifier sequenceNumber h
  unfold checksumTotal at hle ⊢
  rw [← headerSum_toNat] at hle ⊢
  exact accumulate_toNat _ _ (Nat.lt_of_le_of_lt hle (by decide))

/-- CSUM complements the twice folded accumulator (R111, R113). -/
theorem csum_toNat (P : List Byte) :
    (csum type code identifier sequenceNumber P).toNat = 0xFFFF -
      (fold (fold (accumulate (headerSum type code identifier sequenceNumber) (words P)))).toNat :=
  complement_toNat (fold_fold_le _)

/-- CSUM on a payload in its domain (R111). -/
theorem execCsum_of_length_le (h : P.length ≤ 65535) (s : State) :
    exec (.csum type code identifier sequenceNumber P) s =
      .next (setResult (.checksum (csum type code identifier sequenceNumber P)) s) :=
  if_pos (lengthAtMost_iff.mpr h)

/-- CSUM refuses a longer payload (R112). -/
theorem execCsum_of_length_gt (h : 65535 < P.length) (s : State) :
    exec (.csum type code identifier sequenceNumber P) s = .refused .operandDomain :=
  if_neg fun hle => Nat.not_le.mpr h (lengthAtMost_iff.mp hle)

/-- The words of a message as transmitted are those CSUM adds, and the checksum (R114). -/
theorem sum_words_icmpenc_append (P : List Byte) :
    ((words (icmpenc type code identifier sequenceNumber P ++ P)).map BitVec.toNat).sum =
      checksumTotal type code identifier sequenceNumber P +
        (csum type code identifier sequenceNumber P).toNat := by
  simp only [icmpenc, icmpHeaderBytes, List.cons_append, List.nil_append, words, be16_hi_lo,
    List.map_cons, List.sum_cons, be16_toNat type code, checksumTotal]
  omega

end

/-- Settles O15: the accumulator is the sum on natural numbers, and each fold adds its halves. -/
theorem csumIsTheComplementOfTheFoldedSum : Obligations.CsumIsTheComplementOfTheFoldedSum := by
  intro type code identifier sequenceNumber P s h
  refine ⟨rfl, csum type code identifier sequenceNumber P, ?_, execCsum_of_length_le _ _ _ _ h s⟩
  rw [csum_toNat, fold_toNat, fold_toNat, accumulator_toNat _ _ _ _ h, checksumTotal]

/-- Settles O16: the sum on natural numbers stays below 2^32, so the accumulator is that sum. -/
theorem checksumAccumulatorNeverWraps : Obligations.ChecksumAccumulatorNeverWraps := by
  intro type code identifier sequenceNumber P s
  refine ⟨fun h => ?_, fun h => execCsum_of_length_gt _ _ _ _ h s⟩
  have hacc := accumulator_toNat type code identifier sequenceNumber h
  exact ⟨hacc, hacc.trans_le (checksumTotal_le _ _ _ _ h)⟩

/-- Settles O18: the total T is S + 0xFFFF - S2 with S2 the folded S, hence a multiple of 0xFFFF that is not zero. -/
theorem transmittedMessageFoldsToAllOnes : Obligations.TransmittedMessageFoldsToAllOnes := by
  intro type code identifier sequenceNumber P h M T
  have hT : T = _ := sum_words_icmpenc_append type code identifier sequenceNumber P
  have hbound := checksumTotal_le type code identifier sequenceNumber h
  rw [csum_toNat] at hT
  rw [← accumulator_toNat _ _ _ _ h] at hT hbound
  generalize accumulate (headerSum type code identifier sequenceNumber) (words P) = S at hT hbound
  have hle := fold_fold_le S
  have hself := fold_fold_le_self S
  have hmod := fold_fold_mod S
  have hpos : 0 < T := by omega
  have hmultiple : T % 0xFFFF = 0 := by omega
  have hlt : T < 2 ^ 32 := by omega
  refine ⟨hpos, hmultiple, hlt, (fold_fold_eq_allOnes_iff _).mpr ?_⟩
  rw [BitVec.toNat_ofNat, Nat.mod_eq_of_lt hlt]
  exact ⟨hpos.ne', hmultiple⟩

/-- Settles O19: the guard is the length of the message, and its body compares bytes 2 and 3 with CSUM. -/
theorem csumchkRecomputesAndCompares : Obligations.CsumchkRecomputesAndCompares := by
  refine ⟨fun b0 b1 b2 b3 b4 b5 b6 b7 P s h => ?_, fun M s => ⟨rfl, fun h => ?_⟩⟩
  · refine if_pos (messageLength_iff.mpr ?_)
    simp only [List.length_cons, Config.messageMax]
    omega
  · refine if_neg fun hin => ?_
    obtain ⟨hmin, hmax⟩ := messageLength_iff.mp hin
    exact h.elim (Nat.not_lt.mpr hmin) (Nat.not_lt.mpr hmax)

end Sys2Proof.Proofs
end

section
/-! The ICMP header codec (R130 to R135): ICMPENC, ICMPDEC, their round trip, and the lifetime of what they answer. -/

namespace Sys2Proof.Proofs

open Sys2Proof Sys2Proof.Machine Sys2Proof.Laws

/-! ### Encoder and decoder -/

section
variable (type code : Byte) (identifier sequenceNumber : Half) (P : List Byte)

/-- ICMPENC in the byte form of R130: each 16-bit field as its quotient and its low byte. -/
theorem icmpenc_eq_ofNat :
    icmpenc type code identifier sequenceNumber P =
      let c := csum type code identifier sequenceNumber P
      [type, code, BitVec.ofNat 8 (c.toNat / 256), BitVec.ofNat 8 c.toNat,
        BitVec.ofNat 8 (identifier.toNat / 256), BitVec.ofNat 8 identifier.toNat,
        BitVec.ofNat 8 (sequenceNumber.toNat / 256), BitVec.ofNat 8 sequenceNumber.toNat] := by
  simp only [icmpenc, icmpHeaderBytes, hi8_eq_ofNat, lo8_eq_ofNat]

/-- ICMPDEC reads back every field that ICMPENC was given, and the checksum it stored (R134). -/
theorem icmpdec_icmpenc :
    icmpdec (icmpenc type code identifier sequenceNumber P) =
      .ok { type := type, code := code,
            checksum := csum type code identifier sequenceNumber P,
            identifier := identifier, sequenceNumber := sequenceNumber } :=
  icmpdec_icmpHeaderBytes type code _ identifier sequenceNumber

/-- CSUMCHK recomputes the checksum from the operands that ICMPENC computed it from (R134). -/
theorem csumchk_icmpenc_append :
    csumchk (icmpenc type code identifier sequenceNumber P ++ P) = true := by
  simp only [icmpenc, icmpHeaderBytes, List.cons_append, List.nil_append, csumchk, be16_hi_lo,
    decide_true]

/-- An ICMPENC in its operand domain answers the header bytes (R130). -/
theorem execIcmpenc_of_length_le (h : P.length ≤ 65535) (s : State) :
    exec (.icmpenc type code identifier sequenceNumber P) s =
      .next (setResult (.header (icmpenc type code identifier sequenceNumber P)) s) :=
  if_pos (lengthAtMost_iff.mpr h)

end

/-- Settles O22: the header's bytes assemble to the fields they were taken from. -/
theorem icmpCodecRoundTrip : Obligations.IcmpCodecRoundTrip :=
  fun type code identifier sequenceNumber P =>
    ⟨icmpdec_icmpenc type code identifier sequenceNumber P,
      csumchk_icmpenc_append type code identifier sequenceNumber P⟩

/-- Settles O20: the guard is the length of the payload, and its body answers the bytes of `icmpenc`. -/
theorem icmpencBuildsTheHeader : Obligations.IcmpencBuildsTheHeader := by
  intro type code identifier sequenceNumber P s
  refine ⟨rfl, fun h => ?_, fun h => ?_⟩
  · intro c
    rw [execIcmpenc_of_length_le _ _ _ _ _ h, icmpenc_eq_ofNat]
    rfl
  · exact if_neg fun hle => Nat.not_le.mpr h (lengthAtMost_iff.mp hle)

/-- An ICMPDEC in its operand domain answers what the decoder makes of the bytes (R131). -/
theorem execIcmpdec_of_length_le {B : List Byte} (h : B.length ≤ 65535) (s : State) :
    exec (.icmpdec B) s = .next (setResult (.icmp (icmpdec B)) s) :=
  if_pos (lengthAtMost_iff.mpr h)

/-- Settles O21: eight bytes of any value decode, and the decoder fails on every other length. -/
theorem icmpdecDecodesExactlyEightBytes : Obligations.IcmpdecDecodesExactlyEightBytes := by
  refine ⟨fun b0 b1 b2 b3 b4 b5 b6 b7 s => ?_, fun B s => ⟨rfl, fun h h8 => ?_, fun h => ?_⟩⟩
  · exact ⟨_, execIcmpdec_of_length_le (by simp) s, rfl, rfl, be16_toNat b2 b3, be16_toNat b4 b5,
      be16_toNat b6 b7⟩
  · rw [execIcmpdec_of_length_le h, icmpdec_of_length_ne h8]
    rfl
  · exact if_neg fun hle => Nat.not_le.mpr h (lengthAtMost_iff.mp hle)

/-! ### What is on the result port after an instruction (R135, R158) -/

/-- An instruction leaves an answer on the result port exactly when it is one of those that answer. -/
theorem exec_result_ne_none_iff {i : Instr} {s t : State} (h : exec i s = .next t) :
    t.result ≠ none ↔ answers i = true := by
  cases hi : answers i with
  | true =>
    obtain ⟨r, rfl⟩ := exec_answer_next hi h
    simp
  | false => simp [exec_result_none hi h]

/-- What an instruction leaves on the result port does not depend on the state it ran from. -/
theorem exec_result_congr {i : Instr} {s t s₀ t₀ : State} (h : exec i s = .next t)
    (h₀ : exec i s₀ = .next t₀) : t₀.result = t.result := by
  cases hi : answers i with
  | false => rw [exec_result_none hi h, exec_result_none hi h₀]
  | true =>
    obtain ⟨r, hr⟩ | hr := exec_answersUniformly hi
    · obtain rfl : setResult r s = t := Host.Outcome.next.inj ((hr s).symm.trans h)
      obtain rfl : setResult r s₀ = t₀ := Host.Outcome.next.inj ((hr s₀).symm.trans h₀)
      rfl
    · cases (hr s).symm.trans h

/-- Settles O40: a waiting step clears the port, and any other step leaves there what its instruction leaves. -/
theorem resultsDoNotOutliveTheirOperation : Obligations.ResultsDoNotOutliveTheirOperation := by
  intro s t hstep
  constructor
  · intro hnone
    rw [step_of_no_issue hnone] at hstep
    obtain rfl := Host.Outcome.next.inj hstep
    rfl
  · intro iss rest i hs hd
    rw [step_of_decode_ok hs hd] at hstep
    exact ⟨exec_result_ne_none_iff hstep, fun _ _ => exec_result_congr hstep⟩

end Sys2Proof.Proofs
end

section
/-! The IPv4 header decoder IP4DEC (R150 to R155): its operand domain, the fields of the view, and what decides whether it fails. -/

namespace Sys2Proof.Proofs

open Sys2Proof Sys2Proof.Machine Sys2Proof.Laws

/-! ### The fields of the view on natural numbers -/

theorem dfOf_toNat (b6 : Byte) : (dfOf b6).toNat = b6.toNat / 64 % 2 := by
  simp [dfOf, Nat.shiftRight_eq_div_pow]

theorem mfOf_toNat (b6 : Byte) : (mfOf b6).toNat = b6.toNat / 32 % 2 := by
  simp [mfOf, Nat.shiftRight_eq_div_pow]

theorem fragmentOffsetOf_toNat (b6 b7 : Byte) :
    (fragmentOffsetOf b6 b7).toNat = b6.toNat % 32 * 256 + b7.toNat := by
  rw [fragmentOffsetOf, BitVec.toNat_append, ← Nat.shiftLeft_add_eq_or_of_lt b7.isLt,
    Nat.shiftLeft_eq, BitVec.extractLsb'_toNat, Nat.shiftRight_zero]

theorem headerLength_eq (ihl : BitVec 4) : headerLength ihl = 4 * ihl.toNat := rfl

/-- Four times a 4-bit field fits the 6 bits of `header_length_bytes` (R84). -/
theorem toNat_ofNat_headerLength (ihl : BitVec 4) :
    (BitVec.ofNat 6 (headerLength ihl)).toNat = headerLength ihl := by
  rw [BitVec.toNat_ofNat, headerLength_eq]
  omega

/-! ### IP4DEC -/

/-- An IP4DEC in its operand domain answers what the decoder makes of the bytes (R150). -/
theorem execIp4dec_of_length_le {B : List Byte} (h : B.length ≤ 65535) (s : State) :
    exec (.ip4dec B) s = .next (setResult (.ip4 (ip4dec B)) s) :=
  if_pos (lengthAtMost_iff.mpr h)

/-- Settles O23: a shorter buffer is IP4_SHORT; on 20 or more bytes each clause fixes the outcome of the tests of `ip4dec_of_bytes`, and the view's fields are read by the operand laws. -/
theorem ip4decTestsThenReadsTheFields : Obligations.Ip4decTestsThenReadsTheFields := by
  refine ⟨fun B s => ⟨rfl, fun hshort => ?_, fun hlong => ?_⟩, ?_⟩
  · rw [execIp4dec_of_length_le (by omega), ip4dec_of_length_lt hshort]
    rfl
  · exact if_neg fun hle => Nat.not_le.mpr hlong (lengthAtMost_iff.mp hle)
  · intro b0 b1 b2 b3 b4 b5 b6 b7 b8 b9 b10 b11 b12 b13 b14 b15 b16 b17 b18 b19 rest s hlen
    refine ⟨_, execIp4dec_of_length_le ?_ s, ?_⟩
    · simp only [List.length_cons]
      omega
    simp only [ne_eq, ← versionOf_eq_iff, ← ihlOf_toNat, ← headerLength_eq, ip4dec_of_bytes]
    refine ⟨fun hv => ?_, fun hv hi => ?_, fun hv hi htrunc => ?_, fun hv hi hwhole => ?_⟩
    · rw [if_pos hv]
    · rw [if_neg (not_not.mpr hv), if_pos hi]
    · rw [if_neg (not_not.mpr hv), if_neg (Nat.not_lt.mpr hi), if_pos htrunc]
    · rw [if_neg (not_not.mpr hv), if_neg (Nat.not_lt.mpr hi), if_neg (Nat.not_lt.mpr hwhole)]
      exact ⟨_, rfl, congrArg BitVec.toNat hv, rfl, rfl, be16_toNat b2 b3, be16_toNat b4 b5,
        dfOf_toNat b6, mfOf_toNat b6, fragmentOffsetOf_toNat b6 b7, rfl, rfl, be16_toNat b10 b11,
        be32_toNat b12 b13 b14 b15, be32_toNat b16 b17 b18 b19, rfl,
        toNat_ofNat_headerLength (ihlOf b0)⟩

/-- Settles O24: the three tests that a decoded header passed bound `ihl` and the buffer, and the options are taken from bytes that are there. -/
theorem decodedIpv4HeaderIsConsistent : Obligations.DecodedIpv4HeaderIsConsistent := by
  intro B v h
  by_cases hshort : B.length < 20
  · rw [ip4dec_of_length_lt hshort] at h
    cases h
  obtain ⟨b0, b1, b2, b3, b4, b5, b6, b7, b8, b9, b10, b11, b12, b13, b14, b15, b16, b17, b18, b19,
    rest, rfl⟩ := exists_of_twenty_le (Nat.not_lt.mp hshort)
  rw [ip4dec_of_bytes] at h
  split at h
  · cases h
  split at h
  · cases h
  split at h
  · cases h
  rename_i hversion hihl hwhole
  cases h
  have hmax := (ihlOf b0).isLt
  simp only [toNat_ofNat_headerLength, List.length_take, List.length_cons]
  rw [headerLength_eq] at hwhole ⊢
  refine ⟨not_not.mp hversion, ?_⟩
  omega

/-- Settles O25: by `ip4dec_of_head` both buffers fail with one code, or neither fails. -/
theorem ipv4AcceptanceDependsOnFirstByte : Obligations.Ipv4AcceptanceDependsOnFirstByte := by
  intro B B' f hlen h0 hf
  obtain ⟨g, hg, hg'⟩ | ⟨b0, v, v', -, hok, -, -, -⟩ := ip4dec_of_head hlen h0
  · rw [hg', ← hg, hf]
  · cases hf.symm.trans hok

end Sys2Proof.Proofs
end

section
/-! When an operation is enabled, and what it answers when it is not (R190). -/

namespace Sys2Proof.Proofs

open Sys2Proof Sys2Proof.Machine Sys2Proof.Laws

/-- An operation behind a refusing guard, whose body never stops, runs exactly when the guard is open. -/
theorem guarded_exists_next_iff {b : Bool} {o : Host.Outcome State Fault Refusal} {r : Refusal}
    (h : ∃ t, o = .next t) : (∃ t, (if b then o else .refused r) = .next t) ↔ b = true := by
  cases b <;> simp [h]

/-- RX has two guards, and behind them a datagram is discarded or accepted (R178). -/
theorem execRx_exists_next_iff {d : List Byte} {s : State} :
    (∃ t, exec (.rx d) s = .next t) ↔ s.rxArmed = true ∧ d.length ≤ Config.rxMax := by
  constructor
  · rintro ⟨t, ht⟩
    exact (execRx_next_iff.mp ht).1
  · rintro ⟨hrx, hlen⟩
    rw [exec, execRx_enabled hrx hlen]
    cases screen s d <;> exact ⟨_, rfl⟩

/-- The guard of each operation is its row of the table of R190. -/
theorem exec_exists_next_iff_enabled {i : Instr} (hi : isOperation i = true) (s : State) :
    (∃ t, exec i s = .next t) ↔ Enabled i s := by
  cases i
  case cfg => exact (guarded_exists_next_iff ⟨_, rfl⟩).trans cfgEnabled_iff
  case start => exact (guarded_exists_next_iff (sendRequest_next _)).trans startEnabled_iff
  case rx => exact execRx_exists_next_iff
  case tmo => exact (guarded_exists_next_iff ⟨_, rfl⟩).trans tmoEnabled_iff
  case rsnd => exact (guarded_exists_next_iff (sendRequest_next _)).trans rsndEnabled_iff
  case adv => exact (guarded_exists_next_iff ⟨_, rfl⟩).trans advEnabled_iff
  case csumchk => exact (guarded_exists_next_iff ⟨_, rfl⟩).trans messageLength_iff
  case csum | icmpenc | icmpdec | ip4dec =>
    exact (guarded_exists_next_iff ⟨_, rfl⟩).trans lengthAtMost_iff
  case reset => exact ⟨fun _ => trivial, fun _ => ⟨_, rfl⟩⟩
  all_goals cases hi

/-- Settles O12: an operation runs exactly when it is enabled, and as none faults, it is refused otherwise. -/
theorem operationsRunExactlyWhenEnabled : Obligations.OperationsRunExactlyWhenEnabled := by
  intro i s hi
  have hiff := exec_exists_next_iff_enabled hi s
  refine ⟨hiff.mpr, fun hoff => ?_⟩
  cases hx : exec i s with
  | next t => exact absurd (hiff.mp ⟨t, hx⟩) hoff
  | fault f => exact absurd hx (exec_ne_fault i s f)
  | refused r => exact ⟨r, rfl⟩

/-- CFG outside `IDLE` is refused (R171). -/
theorem execCfg_refused {s : State} (h : s.fsm ≠ .idle) (id max size : Half) (dst : Word) :
    exec (.cfg id max size dst) s = .refused .notEnabled :=
  if_neg (mt cfgEnabled_iff.mp h)

/-- START outside `IDLE` or without configuration is refused (R172). -/
theorem execStart_refused {s : State} (h : ¬ (s.fsm = .idle ∧ s.cfgValid = true)) :
    exec .start s = .refused .notEnabled :=
  if_neg (mt startEnabled_iff.mp h)

/-- RX without a listener is refused (R178). -/
theorem execRx_refused {s : State} (h : s.rxArmed = false) (d : List Byte) :
    exec (.rx d) s = .refused .notEnabled :=
  if_neg (Bool.eq_false_iff.mp h)

end Sys2Proof.Proofs
end

section
/-! The timer primitives (R176, R177) and what CFG, START, RSND, TMO and ADV do (R171 to R175, R181). -/

namespace Sys2Proof.Proofs

open Sys2Proof Sys2Proof.Machine Sys2Proof.Laws

/-- Settles O27: `arm` is the update of these four registers. -/
theorem armStartsTheWait : Obligations.ArmStartsTheWait :=
  fun _ _ _ => rfl

/-- A TIMEOUT wait is completed early by the cancel (R177). -/
theorem cancelTimeout_of_timeout {s : State} (ha : s.tmrArmed = true) (hk : s.tmrKind = .timeout) :
    cancelTimeout s = { s with tmrForced := true } :=
  if_pos ⟨ha, hk⟩

/-- With no wait, or with a RESEND wait, there is nothing to cancel (R177). -/
theorem cancelTimeout_of_not_timeout {s : State}
    (h : ¬ (s.tmrArmed = true ∧ s.tmrKind = .timeout)) : cancelTimeout s = s :=
  if_neg h

/-- Settles O28: whether a TIMEOUT wait is pending decides, and the cancel leaves that as it is. -/
theorem cancelCompletesTheTimeoutWaitEarly : Obligations.CancelCompletesTheTimeoutWaitEarly := by
  intro s
  refine ⟨fun ha hk => ?_, fun hno => ?_, ?_⟩
  · rw [cancelTimeout_of_timeout ha hk]
    exact ⟨rfl, _, execTmo_next_iff.mpr ⟨⟨ha, hk, .inl rfl⟩, rfl⟩⟩
  · refine cancelTimeout_of_not_timeout fun ⟨ha, hk⟩ => ?_
    obtain hno | hno := hno
    · cases hno.symm.trans ha
    · cases hno.symm.trans hk
  · by_cases hwait : s.tmrArmed = true ∧ s.tmrKind = .timeout
    · obtain ⟨ha, hk⟩ := hwait
      rw [cancelTimeout_of_timeout ha hk]
      exact cancelTimeout_of_timeout ha hk
    · rw [cancelTimeout_of_not_timeout hwait, cancelTimeout_of_not_timeout hwait]

/-- Settles O29: CFG has one guard, and its body is the update of these registers. -/
theorem cfgLoadsTheConfiguration : Obligations.CfgLoadsTheConfiguration :=
  fun id max size dst _ =>
    ⟨rfl, fun hidle => execCfg_next_iff.mpr ⟨hidle, rfl⟩,
      fun hne => execCfg_refused hne id max size dst⟩

/-- Settles O30: the guard, and behind it the two branches of `send_request` with the listener on. -/
theorem startSendsTheFirstRequest : Obligations.StartSendsTheFirstRequest := by
  refine fun s => ⟨rfl, fun hoff => execStart_refused ?_, fun hidle hcfg hend => ?_,
    fun hidle hcfg hleft => ?_⟩
  · rintro ⟨hidle, hcfg⟩
    obtain hoff | hoff := hoff
    · exact hoff hidle
    · cases hoff.symm.trans hcfg
  · exact execStart_next_iff.mpr ⟨⟨hidle, hcfg⟩, sendRequest_finished hend⟩
  · exact ⟨_, execStart_next_iff.mpr ⟨⟨hidle, hcfg⟩, sendRequest_transmits hleft⟩, rfl⟩

/-- Settles O31: the guard, and behind it the two branches of `send_request` with the wait consumed. -/
theorem rsndSendsTheNextRequest : Obligations.RsndSendsTheNextRequest := by
  refine fun s => ⟨rfl, fun hoff => execRsnd_refused ?_, fun ha hk hdue hend => ?_,
    fun ha hk hdue hleft => ?_⟩
  · exact Bool.eq_false_iff.mpr (mt rsndEnabled_iff.mp hoff)
  · exact execRsnd_next_iff.mpr ⟨⟨ha, hk, hdue⟩, sendRequest_finished hend⟩
  · exact ⟨_, execRsnd_next_iff.mpr ⟨⟨ha, hk, hdue⟩, sendRequest_transmits hleft⟩, rfl⟩

/-- Settles O32: the notification is a branch on the number of replies, inside the output stream. -/
theorem tmoReportsAndArmsTheResendWait : Obligations.TmoReportsAndArmsTheResendWait := by
  refine fun s => ⟨rfl, fun ha hk hdue => execTmo_next_iff.mpr ⟨⟨ha, hk, hdue⟩, ?_⟩,
    fun hoff => execTmo_refused (Bool.eq_false_iff.mpr (mt tmoEnabled_iff.mp hoff))⟩
  rw [apply_ite (s.out ++ ·), List.append_nil]
  rfl

/-- Settles O38: the premise that guards ADV keeps the sum below 2^64. -/
theorem advAdvancesTimeAlone : Obligations.AdvAdvancesTimeAlone := by
  refine fun d s => ⟨rfl, fun hd => ⟨execAdv_next_iff.mpr ⟨hd, rfl⟩, by bv_omega⟩, fun hd => ?_⟩
  exact if_neg fun hen => Nat.not_lt.mpr hd (advEnabled_iff.mp hen)

end Sys2Proof.Proofs
end

section
/-! RX (R178 to R180, R185): the acceptance tests, an accepted reply, and every other datagram. -/

namespace Sys2Proof.Proofs

open Sys2Proof Sys2Proof.Machine Sys2Proof.Laws

/-- Tests 3 to 5 of R179 pass exactly for an echo reply to the last request of this session. -/
theorem matchHeader_eq_none_iff {s : State} {vi : IcmpView} :
    matchHeader s vi = none ↔
      vi.type = 0#8 ∧ vi.identifier = s.identifier ∧ vi.sequenceNumber = s.sentCount := by
  simp only [matchHeader, Config.icmpEchoReply, ite_not]
  split
  case isFalse htype => exact ⟨nofun, fun h => absurd h.1 htype⟩
  case isTrue htype =>
    by_cases hid : vi.identifier = s.identifier <;> simp [htype, hid]

/-- A decoded header is as long as its `ihl` says, and lies in the datagram (R84, R152). -/
theorem headerLengthBytes_of_ip4dec {D : List Byte} {v4 : Ip4View} (h : ip4dec D = .ok v4) :
    v4.headerLengthBytes.toNat = 4 * v4.ihl.toNat ∧ 4 * v4.ihl.toNat ≤ D.length := by
  obtain ⟨-, -, -, hlen, -, -, hle⟩ := decodedIpv4HeaderIsConsistent D v4 h
  exact ⟨hlen, hlen ▸ hle⟩

/-- A datagram is screened as accepted exactly when it passes every test of R179. -/
theorem screen_accepted_iff {s : State} {D : List Byte} {v4 : Ip4View} {vi : IcmpView} :
    screen s D = .accepted v4 vi ↔ Accepts s D v4 vi := by
  rw [Accepts, ← matchHeader_eq_none_iff]
  constructor
  · intro h
    unfold screen at h
    split at h
    · cases h
    rename_i h4
    split at h
    · cases h
    rename_i hi
    split at h
    · cases h
    rename_i hmatch
    cases h
    rw [← (headerLengthBytes_of_ip4dec h4).1]
    exact ⟨h4, hi, hmatch⟩
  · rintro ⟨h4, hi, hmatch⟩
    rw [← (headerLengthBytes_of_ip4dec h4).1] at hi
    simp only [screen, h4, hi, hmatch]

/-- `rx_len` less the header is the number of bytes after the header: neither the length nor the difference wraps (R180). -/
theorem byteCount_eq {D : List Byte} {v4 : Ip4View} (h : ip4dec D = .ok v4) :
    BitVec.ofNat 16 D.length - v4.headerLengthBytes.setWidth 16 =
      BitVec.ofNat 16 (D.length - 4 * v4.ihl.toNat) := by
  obtain ⟨hlen, hle⟩ := headerLengthBytes_of_ip4dec h
  have hsmall : 4 * v4.ihl.toNat < 2 ^ 16 := by omega
  rw [← BitVec.ofNat_toNat, hlen, BitVec.ofNat_sub_ofNat_of_le _ _ hsmall hle]

/-- The first reply to a request forces a pending TIMEOUT wait, and nothing else does (R177, R178). -/
theorem tmrForced_after_reply (s : State) :
    (s.tmrForced ||
        (decide (s.replyCount = 0#16) && s.tmrArmed && decide (s.tmrKind = .timeout))) =
      if s.replyCount = 0#16 ∧ s.tmrArmed = true ∧ s.tmrKind = .timeout then true
      else s.tmrForced := by
  split
  case isTrue h =>
    obtain ⟨h0, ha, hk⟩ := h
    simp [h0, ha, hk]
  case isFalse h =>
    have hno : (decide (s.replyCount = 0#16) && s.tmrArmed && decide (s.tmrKind = .timeout)) =
        false := by simpa [and_assoc] using h
    rw [hno, Bool.or_false]

/-- Settles O34: an accepted datagram is screened as such, and the inversion of RX says what it leaves. -/
theorem rxReportsAnAcceptedReply : Obligations.RxReportsAnAcceptedReply := by
  intro D s v4 vi hrx hlen hacc
  have hscreen := screen_accepted_iff.mpr hacc
  refine ⟨_, execRx_next_iff.mpr ⟨⟨hrx, hlen⟩, .inr ⟨v4, vi, hscreen, rfl⟩⟩, ?_⟩
  obtain ⟨h4, -, -, -, hseq⟩ := hacc
  rw [byteCount_eq h4, hseq, tmrForced_after_reply]
  rfl

/-- Settles O35: a datagram that is not accepted is dropped. -/
theorem rxDiscardsEveryOtherDatagram : Obligations.RxDiscardsEveryOtherDatagram := by
  intro D s hrx hlen hno
  cases hs : screen s D with
  | dropped f => exact ⟨_, execRx_next_iff.mpr ⟨⟨hrx, hlen⟩, .inl ⟨f, hs, rfl⟩⟩, rfl⟩
  | accepted v4 vi => exact absurd (screen_accepted_iff.mp hs) (hno v4 vi)

/-- Settles O36: the two guards of RX, in their order. -/
theorem rxIsRefusedWithoutListener : Obligations.RxIsRefusedWithoutListener := by
  refine fun D s => ⟨rfl, fun hrx => execRx_refused hrx D, fun hrx hlen => ?_⟩
  have hlong : ¬ lengthAtMost Config.rxMax D = true :=
    fun hle => Nat.not_le.mpr hlen (lengthAtMost_iff.mp hle)
  exact (if_pos hrx).trans (if_neg hlong)

end Sys2Proof.Proofs
end

section
/-! The session as a whole: the requests it transmits (R184), its transition table (R182) and its end (R188). -/

namespace Sys2Proof.Proofs

open Sys2Proof Sys2Proof.Machine Sys2Proof.Laws

/-! ### What a transmitted request carries (R184) -/

/-- The message goes to the target and is the echo request of the session in `s` with its next sequence number, which `t` counts. -/
def IsNextRequest (s t : State) (dst : Word) (bytes : List Byte) : Prop :=
  dst = s.targetEndpoint ∧ bytes.length = 8 + s.payloadSize.toNat ∧
    ∃ v, icmpdec (bytes.take 8) = .ok v ∧ v.type = 8#8 ∧ v.code = 0#8 ∧
      v.identifier = s.identifier ∧
      v.sequenceNumber.toNat = s.sentCount.toNat + 1 ∧
      v.sequenceNumber.toNat ≤ s.maxCount.toNat ∧ t.sentCount = v.sequenceNumber

/-- The first 8 bytes of a message are its header, which decodes to the fields that it was encoded from (R134). -/
theorem icmpdec_take_icmpenc_append (type code : Byte) (identifier sequenceNumber : Half)
    (P payload : List Byte) :
    icmpdec ((icmpenc type code identifier sequenceNumber P ++ payload).take 8) =
      .ok { type := type, code := code,
            checksum := csum type code identifier sequenceNumber P,
            identifier := identifier, sequenceNumber := sequenceNumber } := by
  rw [List.take_left' (length_icmpenc _ _ _ _ _)]
  exact icmpdec_icmpenc type code identifier sequenceNumber P

/-- What `send_request` emits is the next request (R173, R184). -/
theorem sendRequest_isNextRequest {s t : State} (h : ReadyToSend s) (hs : sendRequest s = .next t)
    {dst : Word} {bytes : List Byte} (ho : t.out = s.out ++ [.tx dst bytes]) :
    IsNextRequest s t dst bytes := by
  by_cases hmax : s.sentCount = s.maxCount
  · rw [sendRequest_finished hmax] at hs
    obtain rfl := Host.Outcome.next.inj hs
    simp at ho
  · rw [sendRequest_transmits hmax] at hs
    obtain rfl := Host.Outcome.next.inj hs
    obtain ⟨rfl, rfl⟩ : s.targetEndpoint = dst ∧ _ = bytes := by simpa using ho
    obtain ⟨hsucc, hle⟩ := sentCount_succ_no_wrap h.sent_le_max hmax
    refine ⟨rfl, ?_, _, icmpdec_take_icmpenc_append _ _ _ _ _ _, rfl, rfl, rfl, hsucc, hle, rfl⟩
    rw [List.length_append, length_icmpenc, length_fillerPayload]

/-- A TX record comes from START or from RSND (R182). -/
theorem start_or_rsnd_of_tx {i : Instr} {s t : State} (hx : exec i s = .next t) {dst : Word}
    {bytes : List Byte} (ho : t.out = s.out ++ [.tx dst bytes]) : i = .start ∨ i = .rsnd := by
  obtain h | ⟨_, _, -, h⟩ | ⟨_, _, _, _, _, _, h, -⟩ | ⟨h, -⟩ :=
    recordsComeFromTheirOperations i s t hx
  · simp [ho] at h
  · exact h
  · simp [ho] at h
  · simp [ho] at h

/-- Settles O45: START and RSND hand a ready state to `send_request`. -/
theorem requestsCarryTheNextSequenceNumber : Obligations.RequestsCarryTheNextSequenceNumber := by
  intro i s t dst bytes hinv hx ho
  obtain rfl | rfl := start_or_rsnd_of_tx hx ho
  · obtain ⟨⟨hidle, hcfg⟩, hs⟩ := execStart_next_iff.mp hx
    exact sendRequest_isNextRequest (readyToSend_of_start hinv hidle hcfg) hs ho
  · obtain ⟨⟨ha, -⟩, hs⟩ := execRsnd_next_iff.mp hx
    exact sendRequest_isNextRequest (readyToSend_of_rsnd hinv (awaiting_of_tmrArmed hinv ha)) hs ho

/-! ### The transition table (R182) -/

theorem controlTriple_of_idle {s : State} (h : Inv s) (hidle : s.fsm = .idle) :
    controlTriple s = (.idle, none, false) := by
  obtain ⟨hno, hdeaf, -⟩ := h.idle_quiet hidle
  simp [controlTriple, hidle, hno, hdeaf]

theorem controlTriple_of_tmrArmed {s : State} (h : Inv s) (ha : s.tmrArmed = true) :
    controlTriple s = (.awaitingReply, some s.tmrKind, s.rxArmed) := by
  simp [controlTriple, awaiting_of_tmrArmed h ha, ha]

/-- `send_request` ends the session, or starts a TIMEOUT wait with the listener on (R173). -/
theorem sendRequest_controlTriple {s t : State} (h : ReadyToSend s)
    (hs : sendRequest s = .next t) :
    controlTriple t = if s.sentCount = s.maxCount then (.done, none, false)
      else (.awaitingReply, some .timeout, true) := by
  by_cases hmax : s.sentCount = s.maxCount
  · rw [sendRequest_finished hmax] at hs
    obtain rfl := Host.Outcome.next.inj hs
    simp [controlTriple, h.no_wait, hmax]
  · rw [sendRequest_transmits hmax] at hs
    obtain rfl := Host.Outcome.next.inj hs
    simp [controlTriple, h.listening hmax, hmax]

/-- RX leaves the wait, and the listener off exactly when it reports a reply to the last request (R178). -/
theorem execRx_control {D : List Byte} {s t : State} (h : exec (.rx D) s = .next t) :
    t.tmrArmed = s.tmrArmed ∧ t.tmrKind = s.tmrKind ∧
      t.rxArmed = decide (t.out = s.out ∨ s.sentCount ≠ s.maxCount) := by
  obtain ⟨-, ⟨_, -, rfl⟩ | ⟨_, _, -, rfl⟩⟩ := execRx_next_iff.mp h <;> simp

/-- Settles O48, row by row: the invariant gives the triple before, and each operation's inversion the one after. -/
theorem controlMovesAsTheTransitionTable : Obligations.ControlMovesAsTheTransitionTable := by
  intro i s t hinv hx
  have hinv' := exec_inv hinv hx
  cases i
  case reset =>
    obtain rfl := Host.Outcome.next.inj hx
    rfl
  case cfg =>
    obtain ⟨hidle, rfl⟩ := execCfg_next_iff.mp hx
    exact ⟨controlTriple_of_idle hinv hidle, controlTriple_of_idle hinv' hidle⟩
  case start =>
    obtain ⟨⟨hidle, hcfg⟩, hs⟩ := execStart_next_iff.mp hx
    obtain ⟨-, -, hsent, -⟩ := hinv.idle_quiet hidle
    refine ⟨controlTriple_of_idle hinv hidle, ?_⟩
    rw [sendRequest_controlTriple (readyToSend_of_start hinv hidle hcfg) hs]
    simp only [clearResult_sentCount, clearResult_maxCount, hsent, eq_comm]
  case tmo =>
    obtain ⟨⟨ha, hk, -⟩, rfl⟩ := execTmo_next_iff.mp hx
    exact ⟨hk ▸ controlTriple_of_tmrArmed hinv ha, controlTriple_of_tmrArmed hinv' rfl⟩
  case rsnd =>
    obtain ⟨⟨ha, hk, -⟩, hs⟩ := execRsnd_next_iff.mp hx
    have hw := awaiting_of_tmrArmed hinv ha
    have hnext := sendRequest_controlTriple (readyToSend_of_rsnd hinv hw) hs
    exact ⟨hk ▸ controlTriple_of_tmrArmed hinv ha, hnext⟩
  case rx =>
    obtain ⟨⟨hrx, -⟩, -⟩ := execRx_next_iff.mp hx
    obtain ⟨ha, -⟩ := hinv.awaiting_armed (hinv.listening_awaiting hrx)
    obtain ⟨harmed, hkind, hlisten⟩ := execRx_control hx
    refine ⟨hrx ▸ controlTriple_of_tmrArmed hinv ha, ?_⟩
    rw [controlTriple_of_tmrArmed hinv' (harmed.trans ha), hkind, hlisten]
  case adv =>
    obtain ⟨-, rfl⟩ := execAdv_next_iff.mp hx
    rfl
  case reserved0 | reserved7 | reservedD | reservedE => cases hx
  all_goals
    obtain ⟨r, rfl⟩ := exec_answer_next rfl hx
    rfl

/-! ### The end of a session (R188) -/

/-- Settles O47: in DONE the guards of the five session operations are shut, and what is left touches time and the result port alone. -/
theorem doneIsTerminal : Obligations.DoneIsTerminal := by
  intro s hinv hdone
  obtain ⟨hno, hdeaf, -⟩ := hinv.done_quiet hdone
  have hidle : s.fsm ≠ .idle := by rw [hdone]; decide
  have hcfg := execCfg_refused hidle
  have hstart : exec .start s = .refused .notEnabled := execStart_refused fun h => hidle h.1
  have hrx := execRx_refused hdeaf
  have htmo : exec .tmo s = .refused .notEnabled :=
    execTmo_refused (by simp [tmoEnabled, waitCompleted, hno])
  have hrsnd : exec .rsnd s = .refused .notEnabled :=
    execRsnd_refused (by simp [rsndEnabled, hno])
  refine ⟨hcfg, hstart, hrx, htmo, hrsnd, fun i t hreset hx => ?_⟩
  cases i
  case cfg => cases (hcfg _ _ _ _).symm.trans hx
  case start => cases hstart.symm.trans hx
  case rx => cases (hrx _).symm.trans hx
  case tmo => cases htmo.symm.trans hx
  case rsnd => cases hrsnd.symm.trans hx
  case adv =>
    obtain ⟨-, rfl⟩ := execAdv_next_iff.mp hx
    exact ⟨hdone, hdeaf, hno, rfl, rfl⟩
  case reset => exact absurd rfl hreset
  case reserved0 | reserved7 | reservedD | reservedE => cases hx
  all_goals
    obtain ⟨r, rfl⟩ := exec_answer_next rfl hx
    exact ⟨hdone, hdeaf, hno, rfl, rfl⟩

end Sys2Proof.Proofs
end

section
/-! How a session ends (R191): the timer events that are left, over one instruction and over a run. -/

namespace Sys2Proof.Proofs

open Sys2Proof Sys2Proof.Machine Sys2Proof.Laws

/-! ### One instruction -/

/-- `send_request` leaves two timer events for each request that it has and has not sent yet (R173). -/
theorem sendRequest_timerEventsLeft {s t : State} (h : ReadyToSend s)
    (hs : sendRequest s = .next t) :
    timerEventsLeft t = 2 * (s.maxCount.toNat - s.sentCount.toNat) := by
  by_cases hmax : s.sentCount = s.maxCount
  · rw [sendRequest_finished hmax] at hs
    obtain rfl := Host.Outcome.next.inj hs
    simp [timerEventsLeft, hmax]
  · rw [sendRequest_transmits hmax] at hs
    obtain rfl := Host.Outcome.next.inj hs
    obtain ⟨hsucc, hle⟩ := sentCount_succ_no_wrap h.sent_le_max hmax
    rw [timerEventsLeft_awaiting rfl]
    simp only [if_true]
    bv_omega

/-- A wait is the timer event of its kind, and an RSND after each TMO (R182). -/
theorem timerEventsLeft_of_tmrArmed {s : State} (h : Inv s) (ha : s.tmrArmed = true) :
    timerEventsLeft s =
      2 * (s.maxCount.toNat - s.sentCount.toNat) + (if s.tmrKind = .timeout then 2 else 1) :=
  timerEventsLeft_awaiting (awaiting_of_tmrArmed h ha)

/-- START leaves two timer events for each request (R191). -/
theorem execStart_timerEventsLeft {s t : State} (hinv : Inv s) (hx : exec .start s = .next t) :
    timerEventsLeft t = 2 * s.maxCount.toNat := by
  obtain ⟨⟨hidle, hcfg⟩, hs⟩ := execStart_next_iff.mp hx
  obtain ⟨-, -, hsent, -⟩ := hinv.idle_quiet hidle
  rw [sendRequest_timerEventsLeft (readyToSend_of_start hinv hidle hcfg) hs]
  simp [hsent]

/-- A timer event lowers the number left by one; START and RESET apart, nothing else changes it (R191). -/
theorem exec_timerEventsLeft {i : Instr} {s t : State} (hinv : Inv s) (hx : exec i s = .next t)
    (hreset : i ≠ .reset) (hstart : i ≠ .start) :
    timerEventsLeft s = timerEventsLeft t + (if isTimerEvent i then 1 else 0) := by
  cases i
  case cfg =>
    obtain ⟨hidle, rfl⟩ := execCfg_next_iff.mp hx
    simp [timerEventsLeft, hidle, isTimerEvent]
  case start => exact absurd rfl hstart
  case rx =>
    obtain ⟨-, ⟨_, -, rfl⟩ | ⟨_, _, -, rfl⟩⟩ := execRx_next_iff.mp hx <;> rfl
  case tmo =>
    have hleft := timerEventsLeft_of_tmrArmed (exec_inv hinv hx)
    obtain ⟨⟨ha, hk, -⟩, rfl⟩ := execTmo_next_iff.mp hx
    rw [timerEventsLeft_of_tmrArmed hinv ha, hk, hleft rfl]
    rfl
  case rsnd =>
    obtain ⟨⟨ha, hk, -⟩, hs⟩ := execRsnd_next_iff.mp hx
    have hw := awaiting_of_tmrArmed hinv ha
    rw [timerEventsLeft_awaiting hw, hk,
      sendRequest_timerEventsLeft (readyToSend_of_rsnd hinv hw) hs]
    rfl
  case adv =>
    obtain ⟨-, rfl⟩ := execAdv_next_iff.mp hx
    rfl
  case reset => exact absurd rfl hreset
  case reserved0 | reserved7 | reservedD | reservedE => cases hx
  all_goals
    obtain ⟨r, rfl⟩ := exec_answer_next rfl hx
    rfl

/-! ### A run in a session -/

/-- From START on, no operation but RESET leads back to `IDLE`: no row of the transition table does (R182). -/
theorem exec_fsm_ne_idle {i : Instr} {s t : State} (hinv : Inv s) (hs : s.fsm ≠ .idle)
    (hreset : i ≠ .reset) (hx : exec i s = .next t) : t.fsm ≠ .idle := by
  have hrow := controlMovesAsTheTransitionTable i s t hinv hx
  cases i
  case cfg | start => exact absurd (congrArg Prod.fst hrow.1) hs
  case rx | tmo => exact fun hidle => by cases (congrArg Prod.fst hrow.2).symm.trans hidle
  case rsnd =>
    have hfsm := congrArg Prod.fst hrow.2
    split at hfsm <;> exact fun hidle => by cases hfsm.symm.trans hidle
  case reset => exact absurd rfl hreset
  all_goals exact fun hidle => hs ((congrArg Prod.fst hrow).symm.trans hidle)

/-- In a session no timer event is left exactly when it is over (R188, R191). -/
theorem timerEventsLeft_eq_zero_iff {s : State} (hinv : Inv s) (hs : s.fsm ≠ .idle) :
    timerEventsLeft s = 0 ↔ s.fsm = .done := by
  cases hf : s.fsm with
  | idle => exact absurd hf hs
  | sending => exact absurd hf hinv.never_sending
  | awaitingReply =>
    rw [timerEventsLeft_awaiting hf]
    split <;> simp
  | done => simp [timerEventsLeft, hf]

/-- The timer event that lowers the number to 0 ends the session (R191). -/
theorem exec_done_of_last_timerEvent {i : Instr} {s t : State} (hinv : Inv s)
    (hx : exec i s = .next t) (hreset : i ≠ .reset) (hstart : i ≠ .start)
    (htimer : isTimerEvent i = true) (hlast : timerEventsLeft t = 0) : t.fsm = .done := by
  have hleft := exec_timerEventsLeft hinv hx hreset hstart
  rw [hlast, if_pos htimer] at hleft
  have hs : s.fsm ≠ .idle := fun hidle => by simp [timerEventsLeft, hidle] at hleft
  exact (timerEventsLeft_eq_zero_iff (exec_inv hinv hx) (exec_fsm_ne_idle hinv hs hreset hx)).mp
    hlast

/-- A run in a session stays in one, and lowers the number by the timer events that it handles (R191). -/
theorem execAll_timerEventsLeft {is : List Instr} {s t : State} (hinv : Inv s)
    (hs : s.fsm ≠ .idle) (hreset : .reset ∉ is) (hx : execAll is s = .next t) :
    Inv t ∧ t.fsm ≠ .idle ∧
      (is.filter isTimerEvent).length + timerEventsLeft t = timerEventsLeft s := by
  induction is generalizing s with
  | nil =>
    obtain rfl := Host.Outcome.next.inj hx
    exact ⟨hinv, hs, Nat.zero_add _⟩
  | cons i is ih =>
    obtain ⟨u, hi, hrest⟩ := execAll_cons_next_iff.mp hx
    obtain ⟨hne, hnot⟩ := List.ne_and_not_mem_of_not_mem_cons hreset
    have hstart : i ≠ .start := by
      rintro rfl
      cases (execStart_refused fun h => hs h.1).symm.trans hi
    have hleft := exec_timerEventsLeft hinv hi hne.symm hstart
    obtain ⟨hinv', hs', hcount⟩ :=
      ih (exec_inv hinv hi) (exec_fsm_ne_idle hinv hs hne.symm hi) hnot hrest
    refine ⟨hinv', hs', ?_⟩
    rw [← List.countP_eq_length_filter] at hcount ⊢
    rw [List.countP_cons]
    omega

/-! ### The next timer event is reachable -/

theorem timeToDeadline_toNat (s : State) :
    (timeToDeadline s).toNat = s.tmrDeadline.toNat - s.now.toNat := by
  rw [timeToDeadline_eq, BitVec.toNat_ofNat, Nat.mod_eq_of_lt (by omega)]

/-- Time can pass to the deadline as long as the deadline is within the premise (R33, R96). -/
theorem exec_adv_timeToDeadline {s : State} (hinv : Inv s)
    (hd : s.tmrDeadline.toNat + 3 * 1000000 < 2 ^ 64) :
    exec (.adv (timeToDeadline s)) s =
        .next { s with now := s.now + timeToDeadline s, result := none } ∧
      s.tmrDeadline ≤ s.now + timeToDeadline s := by
  have hnow := timePremise_iff.mp hinv.time_premise
  have hd' := timeToDeadline_toNat s
  exact ⟨execAdv_next_iff.mpr ⟨by omega, rfl⟩, by bv_omega⟩

/-- The timer event of a completed wait runs (R94). -/
theorem exec_timerEvent_next {s : State} (hinv : Inv s) (ha : s.tmrArmed = true)
    (hdue : s.tmrDeadline ≤ s.now) : ∃ t, exec (timerEvent s.tmrKind) s = .next t := by
  obtain ⟨htimeout, hresend⟩ := timerRaisesExactlyOneEvent s hinv ha (.inr hdue)
  cases hk : s.tmrKind with
  | timeout => exact (htimeout hk).1
  | resend => exact (hresend hk).1

/-- Settles O50: one instruction, START, a run from AWAITING_REPLY, and the way to the next timer event. -/
theorem timerEventsRunOut : Obligations.TimerEventsRunOut := by
  refine ⟨fun i s t hinv hx hreset hstart => ?_, fun s t hinv hx => ?_,
    fun is s t hinv hw hreset hx => ?_, fun s hinv hw hd => ?_⟩
  · exact ⟨exec_timerEventsLeft hinv hx hreset hstart,
      exec_done_of_last_timerEvent hinv hx hreset hstart⟩
  · exact execStart_timerEventsLeft hinv hx
  · obtain ⟨hinv', hs', hcount⟩ :=
      execAll_timerEventsLeft hinv (by rw [hw]; decide) hreset hx
    refine ⟨hcount, ?_⟩
    rw [← timerEventsLeft_eq_zero_iff hinv' hs']
    omega
  · obtain ⟨hadv, hdue⟩ := exec_adv_timeToDeadline hinv hd
    obtain ⟨ha, -⟩ := hinv.awaiting_armed hw
    obtain ⟨t, ht⟩ := exec_timerEvent_next (exec_inv hinv hadv) ha hdue
    exact ⟨_, _, t, hadv, ht⟩

end Sys2Proof.Proofs
end

section
/-! The cadence of the ideal schedule (R183): what a WAIT line runs, and two of them in a row. -/

namespace Sys2Proof.Proofs

open Sys2Proof Sys2Proof.Machine Sys2Proof.Laws

/-! ### One WAIT line (R96) -/

theorem execAll_singleton (i : Instr) (s : State) : execAll [i] s = exec i s := by
  rw [execAll]
  cases exec i s <;> rfl

/-- WAIT on a wait that is completed early is its timer event. -/
theorem execLine_wait_of_forced {s : State} {k : TmrKind} (ha : s.tmrArmed = true)
    (hk : s.tmrKind = k) (hf : s.tmrForced = true) :
    execLine .wait s = exec (timerEvent k) s := by
  have hline : expandLine .wait s = some [timerEvent k] := by simp [expandLine, ha, hf, hk]
  rw [execLine_of_expandLine hline, execAll_singleton]

/-- Before the deadline the ADV of a WAIT line ends at the deadline. -/
theorem exec_adv_to_deadline {s : State} (hinv : Inv s) (hle : s.now ≤ s.tmrDeadline)
    (hd : s.tmrDeadline.toNat + 3 * 1000000 < 2 ^ 64) :
    exec (.adv (timeToDeadline s)) s = .next { s with now := s.tmrDeadline, result := none } := by
  have hnow : s.now + timeToDeadline s = s.tmrDeadline := by
    have := timeToDeadline_toNat s
    bv_omega
  obtain ⟨hadv, -⟩ := exec_adv_timeToDeadline hinv hd
  rw [hadv, hnow]

/-- WAIT before the deadline lets time pass to it, and the timer event runs there. -/
theorem execLine_wait_of_running {s : State} {k : TmrKind} (hinv : Inv s) (ha : s.tmrArmed = true)
    (hk : s.tmrKind = k) (hf : s.tmrForced = false) (hle : s.now ≤ s.tmrDeadline)
    (hd : s.tmrDeadline.toNat + 3 * 1000000 < 2 ^ 64) :
    execLine .wait s = exec (timerEvent k) { s with now := s.tmrDeadline, result := none } := by
  have hline : expandLine .wait s = some [.adv (timeToDeadline s), timerEvent k] := by
    simp [expandLine, ha, hf, hk]
  rw [execLine_of_expandLine hline, execAll, exec_adv_to_deadline hinv hle hd]
  exact execAll_singleton _ _

/-! ### The two WAIT lines -/

/-- RSND with a request left sends it now (R174). -/
theorem execRsnd_transmits {s : State} (ha : s.tmrArmed = true) (hk : s.tmrKind = .resend)
    (hdue : s.tmrDeadline ≤ s.now) (hleft : s.sentCount ≠ s.maxCount) :
    ∃ t dst bytes, exec .rsnd s = .next t ∧ t.lastSendTimestamp = s.now ∧
      t.sentCount = s.sentCount + 1#16 ∧ t.out = s.out ++ [.tx dst bytes] :=
  ⟨_, _, _, execRsnd_next_iff.mpr ⟨⟨ha, hk, hdue⟩, sendRequest_transmits hleft⟩, rfl, rfl, rfl⟩

/-- WAIT on a RESEND wait that ends in one second sends the next request then (R174). -/
theorem execLine_wait_resend {s : State} (hinv : Inv s) (ha : s.tmrArmed = true)
    (hk : s.tmrKind = .resend) (hf : s.tmrForced = false)
    (hd : s.tmrDeadline = s.now + Config.tResend) (htime : s.now.toNat + 4 * 1000000 < 2 ^ 64)
    (hleft : s.sentCount ≠ s.maxCount) :
    ∃ t dst bytes, execLine .wait s = .next t ∧
      t.lastSendTimestamp.toNat = s.now.toNat + 1000000 ∧
      t.sentCount.toNat = s.sentCount.toNat + 1 ∧ t.out = s.out ++ [.tx dst bytes] := by
  have hmax := hinv.sent_le_max (by rw [awaiting_of_tmrArmed hinv ha]; decide)
  obtain ⟨hsucc, -⟩ := sentCount_succ_no_wrap hmax hleft
  have hdeadline : s.tmrDeadline.toNat = s.now.toNat + 1000000 := by
    rw [hd, Config.tResend]
    bv_omega
  have hline := execLine_wait_of_running hinv ha hk hf (by bv_omega) (by omega)
  obtain ⟨t, dst, bytes, ht, hlast, hsent, hout⟩ :=
    execRsnd_transmits (s := { s with now := s.tmrDeadline, result := none }) ha hk
      (BitVec.le_refl _) hleft
  exact ⟨t, dst, bytes, hline.trans ht, hlast ▸ hdeadline, hsent ▸ hsucc, hout⟩

/-- WAIT after TMO sends the next request one second after the timeout handling (R174, R175). -/
theorem execLine_wait_of_tmo {s s₁ : State} (hinv : Inv s) (hx : exec .tmo s = .next s₁)
    (htime : s.now.toNat + 4 * 1000000 < 2 ^ 64) (hleft : s.sentCount ≠ s.maxCount) :
    ∃ t dst bytes, execLine .wait s₁ = .next t ∧
      t.lastSendTimestamp.toNat = s.now.toNat + 1000000 ∧
      t.sentCount.toNat = s.sentCount.toNat + 1 ∧
      t.out = (if s.replyCount = 0#16 then s.out ++ [.timeoutNote] else s.out) ++
        [.tx dst bytes] := by
  have hinv₁ := exec_inv hinv hx
  obtain ⟨-, rfl⟩ := execTmo_next_iff.mp hx
  exact execLine_wait_resend hinv₁ rfl rfl rfl rfl htime hleft

/-- Settles O52: the first WAIT line runs TMO, at the deadline two seconds after the last request or at once where a reply
has completed the wait; the second sends the next request one second later. -/
theorem idealScheduleKeepsTheCadence : Obligations.IdealScheduleKeepsTheCadence := by
  intro s hinv ha hk hleft
  refine ⟨fun hf h0 hle hlast => ?_, fun hf htime => ?_⟩
  · have hdeadline : s.tmrDeadline.toNat = s.lastSendTimestamp.toNat + 2000000 := by
      rw [hinv.timeout_deadline ha hk, Config.tTimeout]
      bv_omega
    have hd : s.tmrDeadline.toNat + 3 * 1000000 < 2 ^ 64 := by omega
    have hline := execLine_wait_of_running hinv ha hk hf hle hd
    have htmo := (execTmo_next_iff (s := { s with now := s.tmrDeadline, result := none })).mpr
      ⟨⟨ha, hk, .inr (BitVec.le_refl _)⟩, rfl⟩
    have hinv' := exec_inv hinv (exec_adv_to_deadline hinv hle hd)
    have htime : s.tmrDeadline.toNat + 4 * 1000000 < 2 ^ 64 := by omega
    obtain ⟨t, dst, bytes, ht, htlast, htsent, hout⟩ :=
      execLine_wait_of_tmo hinv' htmo htime hleft
    rw [if_pos h0, List.append_assoc] at hout
    have hsecond : t.lastSendTimestamp.toNat = s.tmrDeadline.toNat + 1000000 := htlast
    have hcadence : t.lastSendTimestamp.toNat = s.lastSendTimestamp.toNat + 3 * 1000000 := by
      omega
    exact ⟨_, t, dst, bytes, hline.trans htmo, ht, hcadence, htsent, hout⟩
  · have hline := execLine_wait_of_forced ha hk hf
    have htmo := execTmo_next_iff.mpr ⟨⟨ha, hk, .inl hf⟩, rfl⟩
    obtain ⟨t, dst, bytes, ht, htlast, htsent, hout⟩ :=
      execLine_wait_of_tmo hinv htmo htime hleft
    obtain ⟨-, -, hreplied⟩ := hinv.forced_timeout hf
    have hne : s.replyCount ≠ 0#16 := by bv_omega
    rw [if_neg hne] at hout
    exact ⟨_, t, dst, bytes, hline.trans htmo, ht, htlast, htsent, hout⟩

end Sys2Proof.Proofs
end

section
/-! The race of the first reply with a due timeout (R228, R266): RX before TMO and TMO before RX. -/

namespace Sys2Proof.Proofs

open Sys2Proof Sys2Proof.Machine Sys2Proof.Laws

/-- RX on an accepted datagram, with what the model leaves in RXBUF and `rx_len` (R178, R180, log 9). -/
theorem execRx_accepted {D : List Byte} {s : State} {v4 : Ip4View} {vi : IcmpView}
    (hrx : s.rxArmed = true) (hlen : D.length ≤ 65535) (hacc : Accepts s D v4 vi) :
    exec (.rx D) s = .next { s with
      tmrForced := if s.replyCount = 0#16 ∧ s.tmrArmed = true ∧ s.tmrKind = .timeout then true
        else s.tmrForced
      replyCount := satInc s.replyCount
      out := s.out ++ [.reply (BitVec.ofNat 16 (D.length - 4 * v4.ihl.toNat)) v4.source
        s.sentCount v4.ttl (s.now - s.lastSendTimestamp)]
      rxArmed := !decide (s.sentCount = s.maxCount)
      rxbuf := []
      rxLen := BitVec.ofNat 16 D.length
      result := none } := by
  refine execRx_next_iff.mpr ⟨⟨hrx, hlen⟩, .inr ⟨v4, vi, screen_accepted_iff.mpr hacc, ?_⟩⟩
  obtain ⟨h4, -, -, -, hseq⟩ := hacc
  rw [byteCount_eq h4, hseq, tmrForced_after_reply]

/-- TMO on an unanswered request reports the timeout (R175). -/
theorem execTmo_unanswered {s : State} (ha : s.tmrArmed = true) (hk : s.tmrKind = .timeout)
    (hdue : s.tmrDeadline ≤ s.now) (h0 : s.replyCount = 0#16) :
    exec .tmo s = .next { s with
      tmrArmed := true, tmrKind := .resend, tmrDeadline := s.now + Config.tResend,
      tmrForced := false, result := none, out := s.out ++ [.timeoutNote] } :=
  execTmo_next_iff.mpr ⟨⟨ha, hk, .inr hdue⟩, by rw [if_pos h0]⟩

/-- TMO on an answered request reports nothing (R175). -/
theorem execTmo_answered {s : State} (ha : s.tmrArmed = true) (hk : s.tmrKind = .timeout)
    (hdue : s.tmrDeadline ≤ s.now) (hne : s.replyCount ≠ 0#16) :
    exec .tmo s = .next { s with
      tmrArmed := true, tmrKind := .resend, tmrDeadline := s.now + Config.tResend,
      tmrForced := false, result := none } :=
  execTmo_next_iff.mpr ⟨⟨ha, hk, .inr hdue⟩, by rw [if_neg hne]⟩

/-- A counted reply is there for TMO to see, at saturation too (R7, R28). -/
theorem satInc_ne_zero (v : Half) : satInc v ≠ 0#16 := by
  have := satInc_pos v
  bv_omega

/-- Settles O51: RX first leaves a counted reply, so TMO after it is silent; TMO first leaves a RESEND wait, which RX does
not cancel.  Either way the RESEND wait is the one TMO arms. -/
theorem raceOrdersDifferOnlyInTheNotification :
    Obligations.RaceOrdersDifferOnlyInTheNotification := by
  intro D s v4 vi hinv hrx hk h0 hdue hlen hacc
  obtain ⟨ha, -⟩ := hinv.awaiting_armed (hinv.listening_awaiting hrx)
  have hcounted := satInc_ne_zero s.replyCount
  refine ⟨_, _, _, _,
    execRx_accepted hrx hlen hacc, execTmo_answered ha hk hdue hcounted,
    execTmo_unanswered ha hk hdue h0, execRx_accepted hrx hlen hacc,
    rfl, List.append_assoc _ _ _, ?_⟩
  have hnoCancel : ¬ (s.replyCount = 0#16 ∧ true = true ∧ TmrKind.resend = .timeout) := by simp
  rw [if_neg hnoCancel]

end Sys2Proof.Proofs
end

section
/-! RESET (R260), and the configuration registers, which are frozen from START to the next RESET (R264). -/

namespace Sys2Proof.Proofs

open Sys2Proof Sys2Proof.Machine Sys2Proof.Laws

/-- Settles O3: `execReset` has no guard and writes these values; the free values are in the other registers. -/
theorem resetOperationReturnsToIdle : Obligations.ResetOperationReturnsToIdle :=
  fun _ => ⟨rfl, _, rfl, rfl, rfl, rfl, rfl, rfl, rfl, rfl, rfl, rfl, rfl⟩

/-- The second state has the configuration registers of the first, `cfg_valid` among them (R21 to R25). -/
def SameConfiguration (s t : State) : Prop :=
  t.identifier = s.identifier ∧ t.maxCount = s.maxCount ∧ t.payloadSize = s.payloadSize ∧
    t.targetEndpoint = s.targetEndpoint ∧ t.cfgValid = s.cfgValid

theorem SameConfiguration.refl (s : State) : SameConfiguration s s := ⟨rfl, rfl, rfl, rfl, rfl⟩

/-- `send_request` reads the configuration and does not write it (R173). -/
theorem sendRequest_sameConfiguration {s t : State} (h : sendRequest s = .next t) :
    SameConfiguration s t := by
  by_cases hmax : s.sentCount = s.maxCount
  · rw [sendRequest_finished hmax] at h
    obtain rfl := Host.Outcome.next.inj h
    exact .refl s
  · rw [sendRequest_transmits hmax] at h
    obtain rfl := Host.Outcome.next.inj h
    exact .refl s

/-- Outside `IDLE` RESET alone writes a configuration register: CFG, the other writer, is refused there (R171, R264). -/
theorem exec_sameConfiguration {i : Instr} {s t : State} (hs : s.fsm ≠ .idle) (hreset : i ≠ .reset)
    (hx : exec i s = .next t) : SameConfiguration s t := by
  cases i
  case cfg =>
    obtain ⟨hidle, -⟩ := execCfg_next_iff.mp hx
    exact absurd hidle hs
  case start =>
    obtain ⟨⟨hidle, -⟩, -⟩ := execStart_next_iff.mp hx
    exact absurd hidle hs
  case rx =>
    obtain ⟨-, ⟨_, -, rfl⟩ | ⟨_, _, -, rfl⟩⟩ := execRx_next_iff.mp hx <;> exact .refl s
  case tmo =>
    obtain ⟨-, rfl⟩ := execTmo_next_iff.mp hx
    exact .refl s
  case rsnd =>
    obtain ⟨-, hsend⟩ := execRsnd_next_iff.mp hx
    have hkept : SameConfiguration (consumeWait (clearResult s)) t :=
      sendRequest_sameConfiguration hsend
    exact hkept
  case adv =>
    obtain ⟨-, rfl⟩ := execAdv_next_iff.mp hx
    exact .refl s
  case reset => exact absurd rfl hreset
  case reserved0 | reserved7 | reservedD | reservedE => cases hx
  all_goals
    obtain ⟨r, rfl⟩ := exec_answer_next rfl hx
    exact .refl s

/-- Settles O46: CFG has the guard `IDLE`, and the instructions that run outside it keep the configuration. -/
theorem configurationIsFrozenInASession : Obligations.ConfigurationIsFrozenInASession :=
  fun _ hs => ⟨execCfg_refused hs, fun _ _ => exec_sameConfiguration hs⟩

end Sys2Proof.Proofs
end
